-- ==== Sys2Proof/Word.lean ====
section
/-! DEFINITION. The word types of the block: command words of 16 bits (30_encoding.md R80) and bytes of 8
(20_memory.md R51). -/

namespace Sys2Proof

/-- A command word `W` (R80). -/
abbrev Word := BitVec 16

/-- A byte: a character on the link, a buffer cell, a pixel channel (R51). -/
abbrev Byte := BitVec 8

end Sys2Proof
end

