-- ==== Sys2Proof/Config.lean ====
section
/-! DEFINITION. The constants the document fixes (00_scope.md R11), the parameters left to the implementation
(R12), the types of the environment's answers to the link primitives (R15, 40_serial_link.md R101 to R105), and the
free values, each an opaque constant without a body. -/

namespace Sys2Proof

/-- The result of `LinkOpen` (R101). -/
inductive OpenAnswer where
  | ok | portUnavailable | configurationRejected
  deriving DecidableEq, Repr, Inhabited

/-- The result of `LinkWrite` (R104). On an error the environment also says how many of the bytes went out
(`sent`, any prefix) and how many of the others stay buffered as written and not yet sent (`kept`; R36, R103).
Assumption log 4. -/
inductive WriteAnswer where
  | ok
  | error (sent kept : Nat)
  deriving DecidableEq, Repr, Inhabited

/-- What the environment decides at a `LinkRead` (R105, R106): the bytes that arrived since the last event, and how
many of the unread bytes this read is given (never more than were asked for). Assumption log 4. -/
structure ReadAnswer where
  arrived : List Byte
  count : Nat
  deriving DecidableEq, Repr, Inhabited

/-- What the link's buffers hold after a close or a reset: nothing is said of it (R102, 93 U18). -/
structure CloseAnswer where
  rx : List Byte
  tx : List Byte
  deriving DecidableEq, Repr, Inhabited

/-- THUMB_ROW_ORDER (R12, 43_raster_scaler.md R167). -/
inductive ThumbRowOrder where
  | rawOrder | canonicalOrder
  deriving DecidableEq, Repr

/-- START_WHILE_CAPTURING (R12, 41_capture_session.md R123). -/
inductive StartWhileCapturing where
  | restart | abandonOnly
  deriving DecidableEq, Repr

/-- Parity of a character on the line (R11). -/
inductive Parity where
  | none | odd | even
  deriving DecidableEq, Repr

/-- The line configuration a successful `LinkOpen` applies (R101). -/
structure LineConfig where
  baud : Nat
  dataBits : Nat
  parity : Parity
  stopBits : Nat
  binaryTransparency : Bool
  dtr : Bool
  rts : Bool
  nonBlockingRead : Bool
  writeTimeoutMs : Nat
  deriving DecidableEq, Repr

/-- The two parameters of R12 that change behaviour. They are fixed for a machine: no step changes them
(assumption log 8). -/
structure Params where
  thumbRowOrder : ThumbRowOrder
  startWhileCapturing : StartWhileCapturing
  deriving DecidableEq, Repr

namespace Config

/-! ### The constants of R11 -/

/-- FRAME_W. -/
@[simp] def frameW : Nat := 128
/-- FRAME_H. -/
@[simp] def frameH : Nat := 64
/-- FRAME_BYTES, the size of RAW and of CANON. -/
@[simp] def frameBytes : Nat := 1024
/-- PAGE_H, pixels stacked in one RawFrame byte. -/
@[simp] def pageH : Nat := 8
/-- RAW_STRIDE, bytes of one band of RAW. -/
@[simp] def rawStride : Nat := 128
/-- CANON_STRIDE, bytes of one row of CANON. -/
@[simp] def canonStride : Nat := 16
/-- TOKEN, the capture command token (R88). -/
@[simp] def token : List Byte := [0x41, 0x41]
/-- TOKEN_LEN, the length of the token, "no terminator". -/
@[simp] def tokenLen : Nat := 2
/-- READ_MAX, the most bytes asked of one `LinkRead`. -/
@[simp] def readMax : Nat := 256
/-- RETRY_LIMIT, the consecutive empty polls that end a capture. -/
@[simp] def retryLimit : Nat := 100
/-- PREVIEW_SCALE. -/
@[simp] def previewScale : Nat := 4
/-- THUMB_W. -/
@[simp] def thumbW : Nat := 128
/-- THUMB_H. -/
@[simp] def thumbH : Nat := 64
/-- PREVIEW_W. -/
@[simp] def previewW : Nat := 512
/-- PREVIEW_H. -/
@[simp] def previewH : Nat := 256
/-- PIXEL_BYTES. -/
@[simp] def pixelBytes : Nat := 4
/-- THUMB_BYTES. -/
@[simp] def thumbBytes : Nat := 32768
/-- PREVIEW_BYTES. -/
@[simp] def previewBytes : Nat := 524288
/-- COLOR_DARK, as the bytes R, G, B, A (R59, R90). -/
@[simp] def colorDark : List Byte := [0x00, 0x00, 0x00, 0xFF]
/-- COLOR_LIGHT, as the bytes R, G, B, A (R59, R90). -/
@[simp] def colorLight : List Byte := [0xDE, 0xEB, 0xFF, 0xFF]
/-- BAUD. -/
@[simp] def baud : Nat := 115200
/-- DATA_BITS. -/
@[simp] def dataBits : Nat := 8
/-- PARITY. -/
@[simp] def parity : Parity := .none
/-- STOP_BITS. -/
@[simp] def stopBits : Nat := 1
/-- WRITE_TIMEOUT_MS. -/
@[simp] def writeTimeoutMs : Nat := 1000
/-- The line as a successful `LinkOpen` configures it: the constants above, binary transparency, DTR and RTS asserted,
and a non-blocking read policy (R101). -/
def lineConfig : LineConfig :=
  { baud := baud, dataBits := dataBits, parity := parity, stopBits := stopBits, binaryTransparency := true,
    dtr := true, rts := true, nonBlockingRead := true, writeTimeoutMs := writeTimeoutMs }

/-! ### The buffer address map (20_memory.md R52) -/

/-- RAW_BASE. -/
@[simp] def rawBase : Nat := 0x00000
/-- CANON_BASE. -/
@[simp] def canonBase : Nat := 0x00400
/-- THUMB_BASE. -/
@[simp] def thumbBase : Nat := 0x08000
/-- PREVIEW_BASE. -/
@[simp] def previewBase : Nat := 0x80000

/-! ### The parameters of R12 -/

/-- PORT_BITS: the width of CONNECT's operand (R82). -/
@[simp] def portBits : Nat := 8
/-- The values R12 gives the two parameters. -/
def defaultParams : Params := { thumbRowOrder := .rawOrder, startWhileCapturing := .restart }
/-- TICK_PERIOD: open, without a value, read by no rule (R12, 70 R240; assumption log 9). -/
opaque tickPeriod : Nat

/-! ### The identity of the block (00_scope.md R3) -/

/-- The label R3 gives a model that needs an identity. -/
def identity : String := "radshot-ctb"

/-! ### Free values (assumption logs 3, 6 and 14) -/

/-- The answer to a `LinkOpen` nothing has scripted: any of the three (R101, R106). -/
opaque freeOpen : Nat → OpenAnswer
/-- The answer to a `LinkWrite` nothing has scripted (R104, R106). -/
opaque freeWrite : Nat → WriteAnswer
/-- The answer to a `LinkRead` nothing has scripted (R105, R106). -/
opaque freeRead : Nat → ReadAnswer
/-- What a close or a reset leaves in the link's buffers where nothing has scripted it (R102). -/
opaque freeClose : Nat → CloseAnswer
/-- The content of an unspecified buffer byte: epoch, then buffer address (10_state.md R34). -/
opaque unspecifiedByte : Nat → Nat → Byte
/-- The recognised prefix of a port name, which the document does not give (44 R186). -/
opaque portPrefix : String
/-- Whether a listing of ports keeps an identifier whose suffix is no number, by that suffix; not stated (44 R189). -/
opaque listsUnnumbered : List Char → Bool
/-- The default name of the image with this id, which the document does not give (44 R192). -/
opaque defaultImageName : Nat → String
/-- The time at which the image with this id was captured (44 R190, R192). -/
opaque captureTime : Nat → Nat

end Config
end Sys2Proof
end

