-- ==== Sys2Proof/Syntax.lean ====
section
/-! DEFINITION. The instructions: one constructor for each row of spec/opcode_table.json (30_encoding.md R83, R84),
the port each is issued on, its mnemonic and assembler form (R92), and the pseudo-instructions (R93). -/

namespace Sys2Proof

/-- The seven operations. `CONNECT`'s operand is the unsigned number `zext(W[7:0])` (R82). -/
inductive Instr where
  | connect (port : Nat)
  | disconnect
  | start
  | poll
  | repack
  | colorize
  | upscale
  deriving DecidableEq, Repr

/-- The two places a word of the format `CMD` is presented at (R80). -/
inductive Port where
  /-- the host's command port -/
  | host
  /-- the internal port the block's sequencer issues engine words on -/
  | engine
  deriving DecidableEq, Repr

/-- The port an operation is issued on (R83, R84). -/
def Instr.port : Instr → Port
  | .connect _ | .disconnect | .start | .poll => .host
  | .repack | .colorize | .upscale => .engine

/-- The mnemonic of R83 and R84. -/
def Instr.mnemonic : Instr → String
  | .connect _ => "CONNECT"
  | .disconnect => "DISCONNECT"
  | .start => "START"
  | .poll => "POLL"
  | .repack => "REPACK"
  | .colorize => "COLORIZE"
  | .upscale => "UPSCALE"

/-- The assembler form of R92: the mnemonic, and for CONNECT the port number in decimal. -/
def Instr.asm : Instr → String
  | .connect p => "CONNECT " ++ toString p
  | i => i.mnemonic

/-- The pseudo-instruction DECODE (R93). -/
def pseudoDecode : List Instr := [.repack, .colorize, .upscale]

/-- The pseudo-instruction TICK, another name for POLL (R93). -/
def pseudoTick : Instr := .poll

/-- The pseudo-instruction `POLL × n` (R93). -/
def pseudoPolls (n : Nat) : List Instr := List.replicate n .poll

end Sys2Proof
end

