-- ==== Sys2Proof/WellFormed.lean ====
section
/-! DEFINITION. Which instructions are well formed: CONNECT's operand fits its field (30_encoding.md R82), and an
instruction stands on the port R83 and R84 give it. -/

namespace Sys2Proof

/-- The operand of every instruction fits the field ARG (R81, R82). -/
def Instr.wellFormed : Instr → Bool
  | .connect p => decide (p < 2 ^ Config.portBits)
  | .disconnect | .start | .poll | .repack | .colorize | .upscale => true

/-- An instruction that may be presented on a port: well formed, and of that port (R84, R85). -/
def Instr.wellFormedOn (port : Port) (i : Instr) : Bool :=
  i.wellFormed && decide (i.port = port)

end Sys2Proof
end

