-- ==== Sys2Proof/Decode.lean ====
section
/-! DEFINITION. Decoding a command word on either port (30_encoding.md R91), total, rejecting by name (R85), and the
encoder written from the same tables (R81, R83, R84). -/

namespace Sys2Proof

/-- Why a word is no instruction on a port. -/
inductive DecodeError where
  /-- a word that matches no row of R83 and R84 (R85) -/
  | reserved
  /-- one of the three engine words, presented on the host port (R84, R85) -/
  | engineWordOnHostPort
  /-- a word on the engine port that is none of the three engine words (R85) -/
  | notAnEngineWord
  deriving DecidableEq, Repr

/-- OP = W[15:8] (R81). -/
def opField (w : Word) : Byte := w.extractLsb' 8 8

/-- ARG = W[7:0] (R81). -/
def argField (w : Word) : Byte := w.extractLsb' 0 8

/-- The operand of CONNECT: `p = zext(W[7:0])` (R82). -/
def portOperand (w : Word) : Nat := (argField w).toNat

/-- Decoding on the engine port (R91). -/
def decodeEngine (w : Word) : Except DecodeError Instr :=
  if w = 0x1000 then .ok .repack
  else if w = 0x1100 then .ok .colorize
  else if w = 0x1200 then .ok .upscale
  else .error .notAnEngineWord

/-- Decoding on the host command port (R91): CONNECT by its OP, the other three by the whole word, every other word
illegal. -/
def decodeHost (w : Word) : Except DecodeError Instr :=
  if opField w = 0x01 then .ok (.connect (portOperand w))
  else if w = 0x0200 then .ok .disconnect
  else if w = 0x0300 then .ok .start
  else if w = 0x0400 then .ok .poll
  else
    match decodeEngine w with
    | .ok _ => .error .engineWordOnHostPort
    | .error _ => .error .reserved

/-- Decoding a word presented on a port. -/
def decode : Port → Word → Except DecodeError Instr
  | .host, w => decodeHost w
  | .engine, w => decodeEngine w

/-- The field OP of an instruction (R83, R84). -/
def opcode : Instr → Byte
  | .connect _ => 0x01
  | .disconnect => 0x02
  | .start => 0x03
  | .poll => 0x04
  | .repack => 0x10
  | .colorize => 0x11
  | .upscale => 0x12

/-- The field ARG of an instruction: CONNECT's port, and 0 for every other (R81). -/
def argument : Instr → Byte
  | .connect p => BitVec.ofNat 8 p
  | .disconnect | .start | .poll | .repack | .colorize | .upscale => 0x00

/-- The word of an instruction: OP above ARG (R81). -/
def encode (i : Instr) : Word := opcode i ++ argument i

/-- The column `match` of R83 and R84. -/
def rowMatch : Instr → Word
  | .connect _ => 0x0100
  | .disconnect => 0x0200
  | .start => 0x0300
  | .poll => 0x0400
  | .repack => 0x1000
  | .colorize => 0x1100
  | .upscale => 0x1200

/-- The column `mask` of R83 and R84. -/
def rowMask : Instr → Word
  | .connect _ => 0xFF00
  | .disconnect | .start | .poll | .repack | .colorize | .upscale => 0xFFFF

/-- The word a table row's bits make: one 16-bit word, the bits above `nbits` zero (R80: there is one length). -/
def tableWord (nbits w : Nat) : Word := BitVec.ofNat 16 (w % 2 ^ nbits)

/-- The instruction the decoder reads from an instruction whose bits are `w`, on whichever of the two ports the table
gives its row (R83, R84). -/
def decodeTableWord (nbits w : Nat) : Option Instr :=
  match decodeHost (tableWord nbits w) with
  | .ok i => some i
  | .error _ => (decodeEngine (tableWord nbits w)).toOption

end Sys2Proof
end

