-- ==== Sys2Proof/Machine/State.lean ====
section
/-! DEFINITION. The state of the block as plain data (10_state.md R21, R22, R25 to R27, R32, R33, R36), the reasons a
step can stop, and the state after reset (10 R39, 70_reset_and_hazards.md R230). -/

namespace Sys2Proof.Machine

/-- The state register ST (R22): four states, two bits, no illegal value. -/
inductive St where
  | idle | capturing | done | timedOut
  deriving DecidableEq, Repr

/-- The responses of 30_encoding.md R86. -/
inductive Response where
  | ok | evData | evEmpty | evDone | evTimeout | evNoop
  | errPortUnavailable | errConfigRejected | errWrite | errNotConnected | errAlreadyConnected | errIllegalCmd
  deriving DecidableEq, Repr

/-- No step of this machine ends in a fault: "the block is never stopped, stuck or reset by an outcome" (60 R200,
R210); every outcome is a value of RESP. The type has no constructor (assumption log 12). -/
inductive Fault where
  deriving DecidableEq, Repr

/-- What the model gives no meaning. All of it is safe: nothing is claimed of the refused case. -/
inductive Refusal where
  /-- exec's arm of an instruction that has no meaning yet; raised by no arm of this model. Safe. -/
  | notModelled (mnemonic : String)
  /-- raised by `step` for a word on the engine port that is none of the three engine words: "the internal engine
  port only ever carries the three words of rule R84, so the engines need no rule for other words" (R85). Safe. -/
  | notAnEngineWord (w : Word)
  /-- raised by `readRegister`: a read of a register number that is not in the table of R31. Safe. -/
  | noSuchRegister (n : Nat)
  /-- raised by `readBuffer`: a host read of a buffer while OUTV = 0 (20_memory.md R54). Safe. -/
  | bufferNotReadable
  /-- raised by `readBuffer`: a host read of an unmapped buffer address (20_memory.md R52). Safe. -/
  | unmappedAddress (a : Nat)
  /-- raised by the host model of 44_host_collaborators.md for an index out of range (R196, 93 U20). Safe. -/
  | imageIndexOutOfRange (index : Nat)
  deriving DecidableEq, Repr

/-- The buffer space (20_memory.md R50, R52): address and byte pairs, addresses strictly rising. An address that is
not listed holds an unspecified byte (10 R34; assumption log 6). -/
abbrev Memory := List Host.Cell

/-- A handle the link holds: on which port, and the line configuration applied (10 R36, 40_serial_link.md R109). -/
structure Handle where
  port : Nat
  line : LineConfig
  deriving DecidableEq, Repr

/-- One call of a link primitive with the environment's answer (R15, R100). -/
inductive LinkEvent where
  | open_ (port : Nat) (answer : OpenAnswer)
  | close
  | purge
  | write (bytes : List Byte) (answer : WriteAnswer)
  | read (max : Nat) (bytes : List Byte)
  deriving DecidableEq, Repr

/-- The link's own state (10 R36). `log` is the model's: the calls so far, oldest first; no step reads it
(assumption log 5). -/
structure Link where
  handle : Option Handle
  rx : List Byte
  tx : List Byte
  log : List LinkEvent
  deriving DecidableEq, Repr

/-- The link environment's coming answers, one list for each primitive that has one, and the number of free draws
made so far where a list has run out (40 R106; assumption log 3). -/
structure Env where
  opens : List OpenAnswer
  closes : List CloseAnswer
  writes : List WriteAnswer
  reads : List ReadAnswer
  draws : Nat
  deriving DecidableEq, Repr

/-- What the host does on the command port (30 R80, 70 R230; assumption log 1). -/
inductive HostEvent where
  | command (w : Word)
  | reset
  deriving DecidableEq, Repr

/-- The state. The first six fields and `link` are the spec's, `params` its fixed parameters (00_scope.md R12); the
others are the model's own (INVENTORY.md, '## State'). -/
structure State where
  /-- ST (R22) -/
  st : St
  /-- CONN (R25) -/
  conn : Bool
  /-- BR (R26) -/
  br : BitVec 11
  /-- RC (R27) -/
  rc : BitVec 7
  /-- RESP (R32) -/
  resp : BitVec 4
  /-- the four buffers (R33, R52) -/
  mem : Memory
  /-- which generation of unspecified contents the unlisted bytes belong to (assumption log 6) -/
  epoch : Nat
  /-- the link (R36) -/
  link : Link
  /-- the link environment (assumption log 3) -/
  env : Env
  /-- what the host does next, first event first (assumption log 1) -/
  host : List HostEvent
  /-- the word the sequencer has issued on the engine port (assumption log 2) -/
  engine : Option Word
  /-- THUMB_ROW_ORDER and START_WHILE_CAPTURING (assumption log 8) -/
  params : Params
  deriving DecidableEq, Repr

/-- The state after reset (R39, R230): Idle, not connected, counters 0, RESP = OK, every buffer byte unspecified, no
handle held. The fields the spec gives no value stand at the values of assumption log 7. -/
def State.reset : State :=
  { st := .idle
    conn := false
    br := 0
    rc := 0
    resp := 0
    mem := []
    epoch := 0
    link := { handle := none, rx := [], tx := [], log := [] }
    env := { opens := [], closes := [], writes := [], reads := [], draws := 0 }
    host := []
    engine := none
    params := Config.defaultParams }

end Sys2Proof.Machine
end

