-- ==== Sys2Proof/Machine/Flags.lean ====
section
/-! DEFINITION. The codes of ST and RESP, and the values that are functions of the state: OUTV, PG, STATUS, EXPECT, the
timeout diagnostic and the handoff event (10_state.md R22, R28, R29, R31, R40, R41; 30_encoding.md R86). -/

namespace Sys2Proof.Machine

/-- The code of a state (R22). -/
def stCode : St → BitVec 2
  | .idle => 0b00
  | .capturing => 0b01
  | .done => 0b10
  | .timedOut => 0b11

/-- The code of a response (R86). -/
def responseCode : Response → BitVec 4
  | .ok => 0x0
  | .evData => 0x1
  | .evEmpty => 0x2
  | .evDone => 0x3
  | .evTimeout => 0x4
  | .evNoop => 0x5
  | .errPortUnavailable => 0x8
  | .errConfigRejected => 0x9
  | .errWrite => 0xA
  | .errNotConnected => 0xB
  | .errAlreadyConnected => 0xC
  | .errIllegalCmd => 0xF

/-- OUTV, 1 exactly when ST = Done (R29). -/
def outputValid (s : State) : Bool := decide (s.st = .done)

/-- PG = floor(BR * 100 / 1024), 7 bits (R28). -/
def progress (s : State) : BitVec 7 := BitVec.ofNat 7 (s.br.toNat * 100 / Config.frameBytes)

/-- EXPECT, hardwired (R31). -/
def expect : BitVec 11 := 1024

/-- STATUS: ST in bits 1:0, CONN in bit 2, OUTV in bit 3, zeros above (R31). -/
def statusWord (s : State) : BitVec 16 :=
  0#12 ++ (BitVec.ofBool (outputValid s) ++ (BitVec.ofBool s.conn ++ stCode s.st))

/-- The timeout diagnostic (BR, 1024), readable while ST = TimedOut (R41). -/
def timeoutDiagnostic (s : State) : Option (BitVec 11 × BitVec 11) :=
  if s.st = .timedOut then some (s.br, expect) else none

/-- The image handoff: RESP holds EV_DONE (R40). -/
def imageHandoff (s : State) : Bool := decide (s.resp = responseCode .evDone)

end Sys2Proof.Machine
end

