-- ==== Sys2Proof/Machine/Operands.lean ====
section
/-! DEFINITION. The computed operands: the number of bytes a POLL copies (41_capture_session.md R125), and the offset
and bit formulas of the buffers (20_memory.md R55 to R59, 42_bit_transpose.md R152, R153, 43_raster_scaler.md R166
to R169). -/

namespace Sys2Proof.Machine

/-- `k = min(|d|, 1024 - BR)` (R125). -/
def copyCount (d : List Byte) (br : BitVec 11) : Nat := min d.length (Config.frameBytes - br.toNat)

/-- The offset in RAW of the byte that holds pixel (x, y) (R55, R152). -/
def rawOffset (x y : Nat) : Nat := x + y / Config.pageH * Config.rawStride

/-- The bit of that byte (R55, R152). -/
def rawBit (y : Nat) : Nat := y % Config.pageH

/-- The offset in CANON of the byte that holds column x of canonical row r (R56, R153). -/
def canonOffset (x r : Nat) : Nat := x / 8 + r * Config.canonStride

/-- The bit of that byte (R56, R153). -/
def canonBit (x : Nat) : Nat := 7 - x % 8

/-- The vertical flip: canonical row r holds RawFrame row 63 − r, and back (R56). -/
def flipRow (r : Nat) : Nat := Config.frameH - 1 - r

/-- The offset in THUMB of pixel (x, y) (R57). -/
def thumbOffset (x y : Nat) : Nat := (y * Config.thumbW + x) * Config.pixelBytes

/-- The offset in PREVIEW of pixel (X, Y) (R58). -/
def previewOffset (X Y : Nat) : Nat := (Y * Config.previewW + X) * Config.pixelBytes

/-- The canonical row that feeds thumbnail row y (R166, R167). -/
def canonRowFor : ThumbRowOrder → Nat → Nat
  | .rawOrder, y => flipRow y
  | .canonicalOrder, y => y

/-- `bit(v, i)` of a byte (R13). -/
def bitOf (v : Byte) (i : Nat) : Bool := v.getLsbD i

/-- Eight bits packed most significant first: bit `7 − j` is `f j` (R155). -/
def packMsbFirst (f : Nat → Bool) : Byte :=
  (List.range 8).foldl (fun acc j => acc ||| (BitVec.ofBool (f j)).setWidth 8 <<< (7 - j)) 0

/-- The colour of a bit as its four bytes R, G, B, A (R90, R168). -/
def colour (b : Bool) : List Byte := if b then Config.colorDark else Config.colorLight

/-- The byte at channel c of the colour of a bit (R59). -/
def colourByte (b : Bool) (c : Nat) : Byte := (colour b).getD c 0

/-- `rawpix(x, y)` of a RawFrame given by its bytes (R55). -/
def rawPixel (raw : Nat → Byte) (x y : Nat) : Bool := bitOf (raw (rawOffset x y)) (rawBit y)

/-- `canonpix(x, r)` of a CanonicalBitmap given by its bytes (R56). -/
def canonPixel (canon : Nat → Byte) (x r : Nat) : Bool := bitOf (canon (canonOffset x r)) (canonBit x)

/-- The CANON byte at an offset, from the bytes of RAW: the closed form of R155, for canonical row `offset div 16` and
byte column `offset mod 16`. -/
def repackByte (raw : Nat → Byte) (offset : Nat) : Byte :=
  packMsbFirst fun j =>
    rawPixel raw (8 * (offset % Config.canonStride) + j) (flipRow (offset / Config.canonStride))

/-- The THUMB byte at an offset, from the bytes of CANON: the channel `offset mod 4` of the colour of the pixel at
column `(offset div 4) mod 128`, row `(offset div 4) div 128` (R166). -/
def colorizeByte (order : ThumbRowOrder) (canon : Nat → Byte) (offset : Nat) : Byte :=
  let pixel := offset / Config.pixelBytes
  let x := pixel % Config.thumbW
  let y := pixel / Config.thumbW
  colourByte (canonPixel canon x (canonRowFor order y)) (offset % Config.pixelBytes)

/-- The PREVIEW byte at an offset, from the bytes of THUMB: `previewpix(X, Y) = thumbpix(X div 4, Y div 4)` (R169). -/
def upscaleByte (thumb : Nat → Byte) (offset : Nat) : Byte :=
  let pixel := offset / Config.pixelBytes
  let X := pixel % Config.previewW
  let Y := pixel / Config.previewW
  thumb (thumbOffset (X / Config.previewScale) (Y / Config.previewScale) + offset % Config.pixelBytes)

end Sys2Proof.Machine
end

