-- ==== Sys2Proof/Machine/Ops.lean ====
section
/-! DEFINITION. The named operations over buffers, registers and link: `MemRead` and `MemWrite` (00_scope.md R14),
buffers becoming unspecified (10_state.md R34), `raise` (R14, 60_exceptions.md R210) and the leaving of a session
(60 R211), and the five link primitives (R15, 40_serial_link.md R101 to R105). -/

namespace Sys2Proof.Machine

/-! ### The buffer space -/

/-- The buffer addresses of the map of R52. -/
def mapped (a : Nat) : Bool :=
  decide (a < Config.canonBase + Config.frameBytes) ||
  (decide (Config.thumbBase ≤ a) && decide (a < Config.thumbBase + Config.thumbBytes)) ||
  (decide (Config.previewBase ≤ a) && decide (a < Config.previewBase + Config.previewBytes))

/-- The byte an address is listed with; none where its content is unspecified (assumption log 6). -/
def Memory.lookup : Memory → Nat → Option Byte
  | [], _ => none
  | (k, b) :: m, a => if k = a then some b else Memory.lookup m a

/-- The one canonical form: addresses strictly rising, every one mapped. -/
abbrev Memory.wf (m : Memory) : Prop :=
  m.Pairwise (fun c d => c.1 < d.1) ∧ ∀ c ∈ m, mapped c.1 = true

/-- The cells of a run of bytes in ascending address order. -/
def cellsFrom : Nat → List Byte → List Host.Cell
  | _, [] => []
  | a, b :: bs => (a, b) :: cellsFrom (a + 1) bs

/-- The same run by a loop, for compiled code. -/
def cellsLoop : Nat → List Byte → List Host.Cell → List Host.Cell
  | _, [], acc => acc.reverse
  | a, b :: bs, acc => cellsLoop (a + 1) bs ((a, b) :: acc)

theorem cellsLoop_eq (a : Nat) (bs : List Byte) (acc : List Host.Cell) :
    cellsLoop a bs acc = acc.reverse ++ cellsFrom a bs := by
  induction bs generalizing a acc with
  | nil => simp [cellsLoop, cellsFrom]
  | cons b bs ih => rw [cellsLoop, ih, cellsFrom]; simp

/-- `cellsFrom` as compiled code runs it. -/
def cellsFromLoop (a : Nat) (bs : List Byte) : List Host.Cell := cellsLoop a bs []

@[csimp] theorem cellsFrom_eq_loop : @cellsFrom = @cellsFromLoop := by
  funext a bs
  rw [cellsFromLoop, cellsLoop_eq]
  rfl

/-- The cells below an address. -/
def Memory.below (m : Memory) (a : Nat) : Memory := m.filter fun c => decide (c.1 < a)

/-- The cells from an address on. -/
def Memory.above (m : Memory) (a : Nat) : Memory := m.filter fun c => decide (a ≤ c.1)

/-- `MemWrite`: a run of bytes written at ascending addresses (R14). The cells below and above the run stay. -/
def Memory.write (m : Memory) (a : Nat) (bs : List Byte) : Memory :=
  m.below a ++ cellsFrom a bs ++ m.above (a + bs.length)

/-- The byte at a buffer address: the one listed, or else the free value of the unspecified content of that address in
this epoch (R34; assumption log 6). -/
def byteAt (s : State) (a : Nat) : Byte := (s.mem.lookup a).getD (Config.unspecifiedByte s.epoch a)

/-- `MemRead(addr, n)` (R14). -/
def memRead (s : State) (a n : Nat) : List Byte := (List.range n).map fun i => byteAt s (a + i)

/-- `MemWrite(addr, n, v)` (R14). -/
def memWrite (a : Nat) (bs : List Byte) (s : State) : State := { s with mem := s.mem.write a bs }

/-- A whole run of `n` bytes written at once, the byte at offset `i` being `f i`. -/
def memFill (base n : Nat) (f : Nat → Byte) (s : State) : State := memWrite base ((List.range n).map f) s

/-- All four buffers become unspecified (R34; assumption log 6). -/
def forgetBuffers (s : State) : State := { s with mem := [], epoch := s.epoch + 1 }

/-! ### Responses, outcomes and the leaving of a session -/

/-- `RESP <- code`, the last action of a command (R32, R86). -/
def respond (r : Response) (s : State) : State := { s with resp := responseCode r }

/-- `raise`: the operation ends, the writes made before stand, RESP takes the code of the outcome; nothing is saved
and nothing else changes (R14, 60 R210). -/
def raise (r : Response) (s : State) : State := respond r s

/-- `ST <- Idle ; BR <- 0 ; RC <- 0`, the way out of every session (40 R110, 41 R121, 60 R211): the capture or its
result is discarded, so the buffers become unspecified (10 R34). -/
def forceIdle (s : State) : State := { forgetBuffers s with st := .idle, br := 0, rc := 0 }

/-- What an illegal word on the host port does: ERR_ILLEGAL_CMD and nothing else (30 R85). -/
def illegalCommand (s : State) : State := raise .errIllegalCmd s

/-! ### The environment's answers (40 R106; assumption log 3) -/

/-- What the environment answers to the next `LinkOpen`. -/
def openAnswer (e : Env) : OpenAnswer :=
  match e.opens with
  | a :: _ => a
  | [] => Config.freeOpen e.draws

/-- The environment after that answer. -/
def openAnswered (e : Env) : Env :=
  match e.opens with
  | _ :: rest => { e with opens := rest }
  | [] => { e with draws := e.draws + 1 }

/-- What the environment answers to the next `LinkWrite`. -/
def writeAnswer (e : Env) : WriteAnswer :=
  match e.writes with
  | a :: _ => a
  | [] => Config.freeWrite e.draws

/-- The environment after that answer. -/
def writeAnswered (e : Env) : Env :=
  match e.writes with
  | _ :: rest => { e with writes := rest }
  | [] => { e with draws := e.draws + 1 }

/-- What the environment answers to the next `LinkRead`. -/
def readAnswer (e : Env) : ReadAnswer :=
  match e.reads with
  | a :: _ => a
  | [] => Config.freeRead e.draws

/-- The environment after that answer. -/
def readAnswered (e : Env) : Env :=
  match e.reads with
  | _ :: rest => { e with reads := rest }
  | [] => { e with draws := e.draws + 1 }

/-- What the next close or reset leaves in the link's buffers. -/
def closeAnswer (e : Env) : CloseAnswer :=
  match e.closes with
  | a :: _ => a
  | [] => Config.freeClose e.draws

/-- The environment after that answer. -/
def closeAnswered (e : Env) : Env :=
  match e.closes with
  | _ :: rest => { e with closes := rest }
  | [] => { e with draws := e.draws + 1 }

/-! ### The link primitives -/

/-- `LinkOpen(p)` (R101). On `ok` a handle is held on port p with the line configured; after a failure no handle is
held. The answer is `openAnswer s.env`. -/
def linkOpen (port : Nat) (s : State) : State :=
  { s with
    link :=
      { s.link with
        handle := if openAnswer s.env = .ok then some { port := port, line := Config.lineConfig } else none
        log := s.link.log ++ [.open_ port (openAnswer s.env)] }
    env := openAnswered s.env }

/-- `LinkClose()` (R102): no handle is held; what the buffers then hold is the environment's. -/
def linkClose (s : State) : State :=
  { s with
    link :=
      { handle := none
        rx := (closeAnswer s.env).rx
        tx := (closeAnswer s.env).tx
        log := s.link.log ++ [.close] }
    env := closeAnswered s.env }

/-- `LinkPurge()` (R103): the bytes received and not read, and those written and not sent, are gone. -/
def linkPurge (s : State) : State :=
  { s with link := { s.link with rx := [], tx := [], log := s.link.log ++ [.purge] } }

/-- The bytes that stay written and not sent after a `LinkWrite` (R103, R104; assumption log 4). -/
def unsentAfter (pending : List Byte) : WriteAnswer → List Byte
  | .ok => []
  | .error sent kept => (pending.drop sent).take kept

/-- `LinkWrite(bytes)` with flush (R104). The answer is `writeAnswer s.env`. -/
def linkWrite (bytes : List Byte) (s : State) : State :=
  { s with
    link :=
      { s.link with
        tx := unsentAfter (s.link.tx ++ bytes) (writeAnswer s.env)
        log := s.link.log ++ [.write bytes (writeAnswer s.env)] }
    env := writeAnswered s.env }

/-- The unread bytes of the link at its next read: those it holds, then those that have arrived (R105). -/
def unreadBytes (s : State) : List Byte := s.link.rx ++ (readAnswer s.env).arrived

/-- The bytes the next `LinkRead(max)` returns: the oldest unread ones, at most `max`, as many as the environment
gives (R105, R106). -/
def readBytes (max : Nat) (s : State) : List Byte :=
  (unreadBytes s).take (min (readAnswer s.env).count max)

/-- `LinkRead(max)` (R105): the bytes `readBytes max s` are removed from the link. -/
def linkRead (max : Nat) (s : State) : State :=
  { s with
    link :=
      { s.link with
        rx := (unreadBytes s).drop (min (readAnswer s.env).count max)
        log := s.link.log ++ [.read max (readBytes max s)] }
    env := readAnswered s.env }

/-! ### Reset -/

/-- Reset of the running block (70 R230): the registers of R39, every buffer byte unspecified, no handle held; the
link's buffers are the environment's (R39). Assumption log 11. -/
def resetBlock (s : State) : State :=
  { forceIdle s with
    conn := false
    resp := responseCode .ok
    link :=
      { s.link with
        handle := none
        rx := (closeAnswer s.env).rx
        tx := (closeAnswer s.env).tx }
    env := closeAnswered s.env
    engine := none }

end Sys2Proof.Machine
end

