-- ==== Sys2Proof/Machine/Connection.lean ====
section
/-! DEFINITION. CONNECT and DISCONNECT (40_serial_link.md R108, R110). -/

namespace Sys2Proof.Machine

/-- CONNECT p over the state (R108). -/
def connectPort (port : Nat) (s : State) : State :=
  if s.conn then raise .errAlreadyConnected s
  else
    match openAnswer s.env with
    | .portUnavailable => raise .errPortUnavailable (linkOpen port s)
    | .configurationRejected => raise .errConfigRejected (linkOpen port s)
    | .ok => respond .ok { linkPurge (linkOpen port s) with conn := true }

/-- DISCONNECT over the state (R110): closing forces every session to Idle. -/
def disconnectPort (s : State) : State :=
  if s.conn then respond .ok (forceIdle { linkClose s with conn := false })
  else respond .ok s

/-- CONNECT p (R108). -/
def execConnect (port : Nat) (s : State) : Host.Outcome State Fault Refusal := .next (connectPort port s)

/-- DISCONNECT (R110). -/
def execDisconnect (s : State) : Host.Outcome State Fault Refusal := .next (disconnectPort s)

end Sys2Proof.Machine
end

