-- ==== Sys2Proof/Machine/Engines.lean ====
section
/-! DEFINITION. The engine operations REPACK (42_bit_transpose.md R151), COLORIZE and UPSCALE (43_raster_scaler.md
R166, R169), and the decode (R172). They write no register, perform no link primitive and cannot fail (R150, R165). -/

namespace Sys2Proof.Machine

/-- The bytes of a buffer by offset. -/
def bufferBytes (base : Nat) (s : State) : Nat → Byte := fun i => byteAt s (base + i)

/-- REPACK over the state: CANON from RAW, in the closed form R155 allows in place of the loops of R151. -/
def repack (s : State) : State :=
  memFill Config.canonBase Config.frameBytes (repackByte (bufferBytes Config.rawBase s)) s

/-- COLORIZE over the state: THUMB from CANON (R166), with the machine's THUMB_ROW_ORDER (R167). -/
def colorize (s : State) : State :=
  memFill Config.thumbBase Config.thumbBytes
    (colorizeByte s.params.thumbRowOrder (bufferBytes Config.canonBase s)) s

/-- UPSCALE over the state: PREVIEW from THUMB (R169). -/
def upscale (s : State) : State :=
  memFill Config.previewBase Config.previewBytes (upscaleByte (bufferBytes Config.thumbBase s)) s

/-! COLORIZE reads each CANON byte 32 times and UPSCALE each THUMB byte 16 times; compiled code reads the source
buffer once into an array. -/

/-- The listed bytes of a run of addresses, read in one pass over the memory. -/
def snapshot (base n : Nat) (m : Memory) : Array (Option Byte) :=
  m.foldr (fun c arr => if base ≤ c.1 then arr.setIfInBounds (c.1 - base) (some c.2) else arr)
    (Array.replicate n none)

theorem snapshot_size (base n : Nat) (m : Memory) : (snapshot base n m).size = n := by
  induction m with
  | nil => simp [snapshot]
  | cons c m ih =>
    show (if base ≤ c.1 then (snapshot base n m).setIfInBounds (c.1 - base) (some c.2)
      else snapshot base n m).size = n
    split <;> simp [ih]

theorem snapshot_getElem (base n : Nat) (m : Memory) {i : Nat} (h : i < n) :
    (snapshot base n m)[i]? = some (m.lookup (base + i)) := by
  induction m with
  | nil => simp [snapshot, h, Memory.lookup]
  | cons c m ih =>
    have hs := snapshot_size base n m
    show (if base ≤ c.1 then (snapshot base n m).setIfInBounds (c.1 - base) (some c.2)
      else snapshot base n m)[i]? = some (if c.1 = base + i then some c.2 else Memory.lookup m (base + i))
    by_cases hb : base ≤ c.1
    · rw [if_pos hb, Array.getElem?_setIfInBounds]
      by_cases hi : c.1 - base = i
      · rw [if_pos hi, if_pos (by omega), if_pos (by omega)]
      · rw [if_neg hi, if_neg (by omega), ih]
    · rw [if_neg hb, if_neg (by omega), ih]

theorem memFill_congr {base n : Nat} {f g : Nat → Byte} (s : State) (h : ∀ i < n, f i = g i) :
    memFill base n f s = memFill base n g s := by
  unfold memFill
  rw [List.map_congr_left fun i hi => h i (List.mem_range.1 hi)]

/-- The byte a snapshot of the run from `base` on gives for an offset. -/
def snapshotByte (base : Nat) (bytes : Array (Option Byte)) (s : State) (i : Nat) : Byte :=
  ((bytes[i]?).getD none).getD (Config.unspecifiedByte s.epoch (base + i))

theorem snapshotByte_eq (base n : Nat) (s : State) {i : Nat} (h : i < n) :
    bufferBytes base s i = snapshotByte base (snapshot base n s.mem) s i := by
  unfold snapshotByte
  rw [snapshot_getElem base n s.mem h]
  rfl

/-- COLORIZE uses CANON bytes only. -/
theorem colorizeByte_congr {o : ThumbRowOrder} {f g : Nat → Byte} (h : ∀ i < 1024, f i = g i) {a : Nat}
    (ha : a < 32768) : colorizeByte o f a = colorizeByte o g a := by
  unfold colorizeByte canonPixel
  simp only
  rw [h]
  cases o <;>
    simp only [canonOffset, canonRowFor, flipRow, Config.canonStride, Config.frameH, Config.thumbW,
      Config.pixelBytes] <;> omega

/-- `colorize` as compiled code runs it. -/
def colorizeFromSnapshot (s : State) : State :=
  let canon := snapshot Config.canonBase Config.frameBytes s.mem
  memFill Config.thumbBase Config.thumbBytes
    (colorizeByte s.params.thumbRowOrder (snapshotByte Config.canonBase canon s)) s

@[csimp] theorem colorize_eq_fromSnapshot : @colorize = @colorizeFromSnapshot := by
  funext s
  exact memFill_congr s fun _ hi =>
    colorizeByte_congr (fun _ hj => snapshotByte_eq Config.canonBase Config.frameBytes s hj) hi

/-- UPSCALE uses THUMB bytes only. -/
theorem upscaleByte_congr {f g : Nat → Byte} (h : ∀ i < 32768, f i = g i) {a : Nat} (ha : a < 524288) :
    upscaleByte f a = upscaleByte g a := by
  unfold upscaleByte
  simp only
  rw [h]
  simp only [thumbOffset, Config.pixelBytes, Config.previewW, Config.previewScale, Config.thumbW]
  omega

/-- `upscale` as compiled code runs it. -/
def upscaleFromSnapshot (s : State) : State :=
  let thumb := snapshot Config.thumbBase Config.thumbBytes s.mem
  memFill Config.previewBase Config.previewBytes
    (upscaleByte (snapshotByte Config.thumbBase thumb s)) s

@[csimp] theorem upscale_eq_fromSnapshot : @upscale = @upscaleFromSnapshot := by
  funext s
  exact memFill_congr s fun _ hi =>
    upscaleByte_congr (fun _ hj => snapshotByte_eq Config.thumbBase Config.thumbBytes s hj) hi

/-- The three engine operations in the order the sequencer issues them (R127, R172). -/
def runDecode (s : State) : State := upscale (colorize (repack s))

/-- REPACK (R151). -/
def execRepack (s : State) : Host.Outcome State Fault Refusal := .next (repack s)

/-- COLORIZE (R166). -/
def execColorize (s : State) : Host.Outcome State Fault Refusal := .next (colorize s)

/-- UPSCALE (R169). -/
def execUpscale (s : State) : Host.Outcome State Fault Refusal := .next (upscale s)

end Sys2Proof.Machine
end

