-- ==== Sys2Proof/Machine/Session.lean ====
section
/-! DEFINITION. START and POLL, the capture state machine (41_capture_session.md R121 to R132). -/

namespace Sys2Proof.Machine

/-- START's purge and write of the token, from a session already forced to Idle (R121, R124). -/
def sendToken (s : State) : State :=
  let t := linkWrite Config.token (linkPurge s)
  match writeAnswer s.env with
  | .error _ _ => raise .errWrite t
  | .ok => respond .ok { t with br := 0, rc := 0, st := .capturing }

/-- START over the state (R121 to R124). With START_WHILE_CAPTURING = abandon_only a START in Capturing ends after the
session is forced to Idle (R123). -/
def startCapture (s : State) : State :=
  if s.conn then
    if s.st = .capturing ∧ s.params.startWhileCapturing = .abandonOnly then respond .ok (forceIdle s)
    else sendToken (forceIdle s)
  else raise .errNotConnected s

/-- The data branch of POLL (R126): `k` bytes into RAW at the current offset, BR and RC updated. -/
def acceptBytes (d : List Byte) (s : State) : State :=
  { memWrite (Config.rawBase + s.br.toNat) (d.take (copyCount d s.br)) s with
    br := BitVec.ofNat 11 (s.br.toNat + copyCount d s.br)
    rc := 0 }

/-- Completion (R127, R131): the decode runs, then ST = Done and the handoff is signalled. -/
def complete (s : State) : State := respond .evDone { runDecode s with st := .done }

/-- The timeout (R129): the partial buffer is discarded, BR stays as the diagnostic. -/
def timeOut (s : State) : State := respond .evTimeout { forgetBuffers s with st := .timedOut }

/-- POLL after a read that returned bytes (R125, R126, R127). -/
def pollData (d : List Byte) (s : State) : State :=
  let t := acceptBytes d s
  if t.br.toNat = Config.frameBytes then complete t else respond .evData t

/-- POLL after a read that returned nothing (R125, R128, R129). -/
def pollEmpty (s : State) : State :=
  let t := { s with rc := s.rc + 1 }
  if t.rc.toNat = Config.retryLimit then timeOut t else respond .evEmpty t

/-- POLL over the state (R125, R130). -/
def pollOnce (s : State) : State :=
  if s.st = .capturing then
    let d := readBytes Config.readMax s
    if 1 ≤ d.length then pollData d (linkRead Config.readMax s)
    else pollEmpty (linkRead Config.readMax s)
  else respond .evNoop s

/-- START (R121). -/
def execStart (s : State) : Host.Outcome State Fault Refusal := .next (startCapture s)

/-- POLL (R125). -/
def execPoll (s : State) : Host.Outcome State Fault Refusal := .next (pollOnce s)

end Sys2Proof.Machine
end

