-- ==== Sys2Proof/Machine/Dispatch.lean ====
section
/-! DEFINITION. The dispatch of every instruction to its meaning. -/

namespace Sys2Proof.Machine

def exec (i : Instr) (s : State) : Host.Outcome State Fault Refusal :=
  match i with
  | .connect port => Sys2Proof.Machine.execConnect port s
  | .disconnect => Sys2Proof.Machine.execDisconnect s
  | .start => Sys2Proof.Machine.execStart s
  | .poll => Sys2Proof.Machine.execPoll s
  | .repack => Sys2Proof.Machine.execRepack s
  | .colorize => Sys2Proof.Machine.execColorize s
  | .upscale => Sys2Proof.Machine.execUpscale s

end Sys2Proof.Machine
end

