-- ==== Sys2Proof/Machine/HostPort.lean ====
section
/-! DEFINITION. What the host can do between commands besides issuing one: read registers (10_state.md R31) and
buffers (20_memory.md R54), neither of which changes any state (R62); and how a word is put where the next step takes
it. -/

namespace Sys2Proof.Machine

/-- A read of register `x[n]`; unused high bits read as 0, a number not in the table has no meaning (R31). -/
def readRegister (n : Nat) (s : State) : Except Refusal (BitVec 16) :=
  match n with
  | 0 => .ok (statusWord s)
  | 1 => .ok (s.br.setWidth 16)
  | 2 => .ok (s.rc.setWidth 16)
  | 3 => .ok ((progress s).setWidth 16)
  | 4 => .ok (s.resp.setWidth 16)
  | 5 => .ok (expect.setWidth 16)
  | n + 6 => .error (.noSuchRegister (n + 6))

/-- A host read of the buffer byte at a 20-bit address: a mapped byte while OUTV = 1, refused otherwise (R52, R54). -/
def readBuffer (a : BitVec 20) (s : State) : Except Refusal Byte :=
  if outputValid s then
    if mapped a.toNat then .ok (byteAt s a.toNat) else .error (.unmappedAddress a.toNat)
  else .error .bufferNotReadable

/-- A word the sequencer issues on the engine port; it is the next thing to run. -/
def presentEngineWord (w : Word) (s : State) : State := { s with engine := some w }

/-- A word the host presents on the command port, ahead of what it does afterwards; nothing stands on the engine
port. -/
def presentHostWord (w : Word) (s : State) : State :=
  { s with engine := none, host := .command w :: s.host }

/-- A word presented on the port the table gives its row: the engine port for the three engine words (R84), the host
port for every other. -/
def presentWord (w : Word) (s : State) : State :=
  match decodeEngine w with
  | .ok _ => presentEngineWord w s
  | .error _ => presentHostWord w s

/-- The step of the engine port (R84, R85) is taken from here: the word leaves the port. -/
def takeEngineWord (s : State) : State := { s with engine := none }

/-- The host's event at hand has happened; `rest` are those to come. -/
def takeHostEvent (rest : List HostEvent) (s : State) : State := { s with host := rest }

end Sys2Proof.Machine
end

