-- ==== Sys2Proof/Machine/Step.lean ====
section
/-! DEFINITION. One step of the block (10_state.md R20): a word standing on the engine port runs; otherwise the host's
next event happens, a command word or a reset; otherwise the block waits (70_reset_and_hazards.md R232, 60 R218). -/

namespace Sys2Proof.Machine

/-- A command word on the host port: the instruction it decodes to, or the answer to an illegal word (30 R85, R91). -/
def runHostWord (w : Word) (s : State) : Host.Outcome State Fault Refusal :=
  match decode .host w with
  | .ok i => exec i s
  | .error _ => .next (illegalCommand s)

/-- A word on the engine port (30 R84, R85). -/
def runEngineWord (w : Word) (s : State) : Host.Outcome State Fault Refusal :=
  match decode .engine w with
  | .ok i => exec i s
  | .error _ => .refused (.notAnEngineWord w)

/-- One step. -/
def step (s : State) : Host.Outcome State Fault Refusal :=
  match s.engine with
  | some w => runEngineWord w (takeEngineWord s)
  | none =>
    match s.host with
    | [] => .next s
    | .command w :: rest => runHostWord w (takeHostEvent rest s)
    | .reset :: rest => .next (resetBlock (takeHostEvent rest s))

/-- `s` with the word of these bits presented where the next step takes it (assumption log 2). -/
def State.withFetchWord (s : State) (nbits w : Nat) : State := presentWord (tableWord nbits w) s

end Sys2Proof.Machine
end

