-- ==== Sys2Proof/Machine/EngineLoops.lean ====
section
/-! DEFINITION. The engine operations as the loops of the spec's pseudocode write them (R151, R166, R169), one
`MemWrite` after another. The meanings use the closed forms; that the two agree is stated in the obligations. -/

namespace Sys2Proof.Machine

/-- `for i in 0 .. n-1: body i`. -/
def forRange (n : Nat) (body : Nat → State → State) (s : State) : State :=
  (List.range n).foldl (fun t i => body i t) s

/-- The body of REPACK's inner loop (R151): the source bit OR-combined into its CANON byte. -/
def repackPixel (x y : Nat) (s : State) : State :=
  let b := bitOf (byteAt s (Config.rawBase + rawOffset x y)) (rawBit y)
  let a := Config.canonBase + canonOffset x (flipRow y)
  memWrite a [byteAt s a ||| (BitVec.ofBool b).setWidth 8 <<< canonBit x] s

/-- REPACK as R151 writes it. -/
def repackLoop (s : State) : State :=
  forRange Config.frameH (fun y => forRange Config.frameW (fun x => repackPixel x y))
    (forRange Config.frameBytes (fun a => memWrite (Config.canonBase + a) [0]) s)

/-- The body of COLORIZE's inner loop (R166). -/
def colorizePixel (x y : Nat) (s : State) : State :=
  let r := canonRowFor s.params.thumbRowOrder y
  let b := bitOf (byteAt s (Config.canonBase + canonOffset x r)) (canonBit x)
  memWrite (Config.thumbBase + thumbOffset x y) (colour b) s

/-- COLORIZE as R166 writes it. -/
def colorizeLoop (s : State) : State :=
  forRange Config.thumbH (fun y => forRange Config.thumbW (fun x => colorizePixel x y)) s

/-- The body of UPSCALE's loops over source pixels (R169): the pixel's colour written to its 4 × 4 block. -/
def upscalePixel (x y : Nat) (s : State) : State :=
  let col := memRead s (Config.thumbBase + thumbOffset x y) Config.pixelBytes
  forRange Config.previewScale (fun dy =>
    forRange Config.previewScale (fun dx =>
      memWrite (Config.previewBase + previewOffset (4 * x + dx) (4 * y + dy)) col)) s

/-- UPSCALE as R169 writes it. -/
def upscaleLoop (s : State) : State :=
  forRange Config.thumbH (fun y => forRange Config.thumbW (fun x => upscalePixel x y)) s

end Sys2Proof.Machine
end

