-- ==== Sys2Proof/Machine/ReferenceEnv.lean ====
section
/-! DEFINITION. The reference environment of 40_serial_link.md R107: a device that answers the token with the 1024 bytes
of a frame, and a link on which every open and write succeeds and a read is given all it asks for. It is one oracle
among all; no operation of the block depends on it (R107). -/

namespace Sys2Proof.Machine

/-- The reference answer to a `LinkRead(256)`: after these last arrivals, the first `min(|RXQ|, 256)` bytes of the
queue. -/
def referenceRead (arrived : List Byte) : ReadAnswer := { arrived := arrived, count := Config.readMax }

/-- The device: the frame it shows, the part of its reply that has not arrived, and the sizes of the next pieces, one
before each step. Where no size is left, all that is pending arrives at once. R107 says "in pieces of any size at any
later times"; one piece before each step, and all the rest at the end, is a DESIGN CHOICE (assumption log 18). -/
structure ReferenceDevice where
  frame : List Byte
  pending : List Byte
  pieces : List Nat
  deriving DecidableEq, Repr

/-- A frame has 1024 bytes. -/
abbrev ReferenceDevice.wf (d : ReferenceDevice) : Prop := d.frame.length = Config.frameBytes

/-- The bytes that arrive before the next step. -/
def ReferenceDevice.piece (d : ReferenceDevice) : List Byte :=
  match d.pieces with
  | [] => d.pending
  | n :: _ => d.pending.take n

/-- The device after they have arrived. -/
def ReferenceDevice.afterPiece (d : ReferenceDevice) : ReferenceDevice :=
  { d with pending := d.pending.drop d.piece.length, pieces := d.pieces.tail }

/-- The device after the token: the whole frame is to come. What was pending of an earlier reply counts as arrived
before the purge that precedes the token (95 P4). -/
def ReferenceDevice.answerToken (d : ReferenceDevice) : ReferenceDevice := { d with pending := d.frame }

/-- The block's link before the next step: the piece has joined RXQ, which is "empty when no handle is held", and
every primitive the step may call is answered as R107 says. -/
def referenceLink (d : ReferenceDevice) (s : State) : State :=
  { s with
    link := { s.link with rx := if s.link.handle.isSome then s.link.rx ++ d.piece else [] }
    env :=
      { s.env with
        opens := [.ok], closes := [{ rx := [], tx := [] }], writes := [.ok], reads := [referenceRead []] } }

/-- The two token bytes went out in the step from `s` to `t`. -/
def tokenSent (s t : State) : Bool :=
  decide (LinkEvent.write Config.token .ok ∈ t.link.log.drop s.link.log.length)

/-- One step of the block in the reference environment. -/
def referenceStep (d : ReferenceDevice) (s : State) :
    Host.Outcome (ReferenceDevice × State) Fault Refusal :=
  match step (referenceLink d s) with
  | .next t => .next (if tokenSent s t then d.afterPiece.answerToken else d.afterPiece, t)
  | .fault r => .fault r
  | .refused r => .refused r

/-- Steps of the block in the reference environment, one after another. -/
def referenceRun : Nat → ReferenceDevice → State → Host.Outcome (ReferenceDevice × State) Fault Refusal
  | 0, d, s => .next (d, s)
  | n + 1, d, s =>
    match referenceStep d s with
    | .next (d', t) => referenceRun n d' t
    | .fault r => .fault r
    | .refused r => .refused r

end Sys2Proof.Machine
end

