-- ==== Sys2Proof/Machine/Collaborators.lean ====
section
/-! DEFINITION. The host software around the block, PortDirectory and ImageStore (44_host_collaborators.md). It is no
part of the hardware (00_scope.md R8): no step of the block reads or writes any of it (R185). Assumption log 14. -/

namespace Sys2Proof.Machine

/-! ### PortDirectory -/

/-- An entry of the host's device registry: a prefix, and the characters that follow it (R186). DESIGN CHOICE (assumption
log 14): an entry comes already split into the two; the identifier X10 is the prefix X with the suffix 10. -/
structure PortId where
  pre : String
  suffix : List Char
  deriving DecidableEq, Repr

/-- The number a run of decimal digits stands for, after the digits read so far. -/
def digitsValue : Nat → List Char → Option Nat
  | n, [] => some n
  | n, c :: cs => if c.isDigit then digitsValue (10 * n + (c.toNat - 48)) cs else none

/-- The numeric suffix of a port identifier (R186). DESIGN CHOICE (assumption log 14): an empty suffix and one that is
not all decimal digits are no number; R186 and R189 do not say what they are. -/
def portNumber (p : PortId) : Option Nat := if p.suffix = [] then none else digitsValue 0 p.suffix

/-- The entries whose identifier matches the recognised prefix (R186). DESIGN CHOICE (assumption log 14), as R186 does not
say what "matches" tests: the entry's prefix field equals the recognised prefix, so that X10 split as X1 and 0 does not
match X. The registry is none where the host does not support enumeration, and there are then no entries (R187). -/
def recognised (pre : String) (registry : Option (List PortId)) : List PortId :=
  (registry.getD []).filter fun p => decide (p.pre = pre)

/-- The recognised entries with a numeric suffix. -/
def numbered (pre : String) (registry : Option (List PortId)) : List PortId :=
  (recognised pre registry).filter fun p => (portNumber p).isSome

/-- The recognised entries with any other suffix, or an empty one. -/
def unnumbered (pre : String) (registry : Option (List PortId)) : List PortId :=
  (recognised pre registry).filter fun p => (portNumber p).isNone

/-- `list()`: the recognised entries in ascending order of their numeric suffix (R186). What R189 leaves open stays
open: entries with equal suffixes stand in any order, and of those without a numeric suffix any are listed, anywhere. -/
def isPortListing (pre : String) (registry : Option (List PortId)) (out : List PortId) : Prop :=
  (out.filter fun p => (portNumber p).isSome).Perm (numbered pre registry) ∧
  (out.filter fun p => (portNumber p).isSome).Pairwise (fun p q => (portNumber p).getD 0 ≤ (portNumber q).getD 0) ∧
  (out.filter fun p => (portNumber p).isNone).Subperm (unnumbered pre registry)

/-- One entry inserted before the first larger suffix. -/
def insertPort (p : PortId) : List PortId → List PortId
  | [] => [p]
  | q :: qs => if (portNumber p).getD 0 ≤ (portNumber q).getD 0 then p :: q :: qs else q :: insertPort p qs

/-- One listing of a registry (R186), empty where enumeration is unsupported (R187). DESIGN CHOICE (assumption log 14),
as R189 states neither: equal suffixes keep the registry's order; of the entries without a numeric suffix those are
kept that the free `Config.listsUnnumbered` keeps, after the others. -/
def listPorts (pre : String) (registry : Option (List PortId)) : List PortId :=
  (numbered pre registry).foldr insertPort [] ++
    (unnumbered pre registry).filter fun p => Config.listsUnnumbered p.suffix

/-- The CONNECT the host issues for a chosen port: its numeric suffix is the operand (R188). None where there is no
such number or it does not fit the operand's field (30 R82; assumption log 14). -/
def connectTo (p : PortId) : Option Instr :=
  (portNumber p).bind fun n => if (Instr.connect n).wellFormed then some (.connect n) else none

/-! ### CapturedImage and ImageStore -/

/-- A captured image (R190). The format of the timestamp is not stated; it is a number here. -/
structure CapturedImage where
  id : Nat
  name : String
  timestamp : Nat
  raw : List Byte
  thumbnail : List Byte
  preview : List Byte
  deriving DecidableEq, Repr

/-- The store (R191): images in capture order, the next id, and the selection, an index or none. -/
structure ImageStore where
  images : List CapturedImage
  nextId : Nat
  selected : Option Nat
  deriving DecidableEq, Repr

/-- The empty store: `next_id` "starts at 1" (R191). -/
def emptyStore : ImageStore := { images := [], nextId := 1, selected := none }

/-- A host read of `n` buffer bytes from an address on (R192); refused as a single read is (R54). -/
def readBufferRun (a n : Nat) (s : State) : Except Refusal (List Byte) :=
  (List.range n).mapM fun i => readBuffer (BitVec.ofNat 20 (a + i)) s

/-- A run of readable bytes is what `MemRead` gives (R54). -/
theorem readBufferRun_of_readable {a n : Nat} {s : State} (hv : outputValid s = true) (hn : a + n ≤ 2 ^ 20)
    (hm : ∀ i < n, mapped (a + i) = true) : readBufferRun a n s = .ok (memRead s a n) := by
  unfold readBufferRun memRead
  have key : ∀ l : List Nat, (∀ i ∈ l, i < n) →
      (l.mapM fun i => readBuffer (BitVec.ofNat 20 (a + i)) s) = .ok (l.map fun i => byteAt s (a + i)) := by
    intro l hl
    induction l with
    | nil => rfl
    | cons i l ih =>
      have hi := hl i (by simp)
      have hr : readBuffer (BitVec.ofNat 20 (a + i)) s = .ok (byteAt s (a + i)) := by
        unfold readBuffer
        rw [BitVec.toNat_ofNat, Nat.mod_eq_of_lt (by omega), if_pos hv, if_pos (hm i hi)]
      rw [List.mapM_cons, hr, ih fun j hj => hl j (by simp [hj])]
      rfl
  exact key _ fun i hi => List.mem_range.1 hi

/-- `readBufferRun` as compiled code runs it: where every byte is readable, in one pass over the memory. -/
def readBufferRunFromSnapshot (a n : Nat) (s : State) : Except Refusal (List Byte) :=
  if outputValid s = true ∧ a + n ≤ 2 ^ 20 ∧ (List.range n).all (fun i => mapped (a + i)) = true then
    let bytes := snapshot a n s.mem
    .ok ((List.range n).map fun i => snapshotByte a bytes s i)
  else (List.range n).mapM fun i => readBuffer (BitVec.ofNat 20 (a + i)) s

@[csimp] theorem readBufferRun_eq_fromSnapshot : @readBufferRun = @readBufferRunFromSnapshot := by
  funext a n s
  unfold readBufferRunFromSnapshot
  split
  · rename_i h
    obtain ⟨hv, hn, hm⟩ := h
    rw [readBufferRun_of_readable hv hn fun i hi => List.all_eq_true.1 hm i (List.mem_range.2 hi)]
    exact congrArg Except.ok
      (List.map_congr_left fun i hi => snapshotByte_eq a n s (List.mem_range.1 hi))
  · rfl

/-- `append` of an image made of these rasters: the next id, a default name, the current time; the new image is the
selected one (R192). -/
def appendImage (raw thumbnail preview : List Byte) (store : ImageStore) : ImageStore :=
  { images :=
      store.images ++
        [{ id := store.nextId, name := Config.defaultImageName store.nextId,
           timestamp := Config.captureTime store.nextId, raw := raw, thumbnail := thumbnail,
           preview := preview }]
    nextId := store.nextId + 1
    selected := some store.images.length }

/-- The host's duty after a command (R192): on EV_DONE, RAW, THUMB and PREVIEW are read out and appended; on any other
answer there is nothing to do. -/
def hostHandoff (s : State) (store : ImageStore) : Except Refusal ImageStore :=
  if imageHandoff s then do
    let raw ← readBufferRun Config.rawBase Config.frameBytes s
    let thumbnail ← readBufferRun Config.thumbBase Config.thumbBytes s
    let preview ← readBufferRun Config.previewBase Config.previewBytes s
    return appendImage raw thumbnail preview store
  else .ok store

/-- `rename(index, text)`: the name is replaced only if the text is not empty (R193). -/
def renameImage (index : Nat) (text : String) (store : ImageStore) : Except Refusal ImageStore :=
  match store.images[index]? with
  | none => .error (.imageIndexOutOfRange index)
  | some image =>
    if text = "" then .ok store
    else .ok { store with images := store.images.set index { image with name := text } }

/-- The selection clamped to a range of this many images, or none where there are none (R194). -/
def clampSelection (count : Nat) : Option Nat → Option Nat
  | none => none
  | some i => if count = 0 then none else some (min i (count - 1))

/-- `remove(index)`: the entry goes with its rasters, the selection is clamped, the ids are not reused (R194). -/
def removeImage (index : Nat) (store : ImageStore) : Except Refusal ImageStore :=
  if index < store.images.length then
    .ok { store with
      images := store.images.eraseIdx index
      selected := clampSelection (store.images.length - 1) store.selected }
  else .error (.imageIndexOutOfRange index)

/-- `clear()`: every entry goes, the selection is none, `next_id` stays as it was (R195). -/
def clearImages (store : ImageStore) : ImageStore := { store with images := [], selected := none }

/-- `select(index)`: a cursor with no validation beyond range (R196). -/
def selectImage (index : Nat) (store : ImageStore) : Except Refusal ImageStore :=
  if index < store.images.length then .ok { store with selected := some index }
  else .error (.imageIndexOutOfRange index)

/-- `selected()` (R196). DESIGN CHOICE (assumption log 14): the image at the cursor; whether `selected()` gives the image
or the cursor itself is not stated. The cursor is the field `ImageStore.selected`. -/
def selectedImage (store : ImageStore) : Option CapturedImage :=
  match store.selected with
  | none => none
  | some i => store.images[i]?

/-! ### The host's loop -/

/-- The host's context (R197): the block it drives, and the store. -/
structure HostLoop where
  block : State
  store : ImageStore
  deriving DecidableEq, Repr

/-- The host issues one command word and, before any other, does its duty on the answer (R192, 41 R131). -/
def hostIssue (w : Word) (h : HostLoop) : Host.Outcome HostLoop Fault Refusal :=
  match step (presentHostWord w h.block) with
  | .fault r => .fault r
  | .refused r => .refused r
  | .next t =>
    match hostHandoff t h.store with
    | .ok store => .next { block := t, store := store }
    | .error r => .refused r

/-- One iteration of the host-driven tick loop: POLL, "on completion the resulting raster pair is appended"
(R185, 30 R93). -/
def hostTick (h : HostLoop) : Host.Outcome HostLoop Fault Refusal := hostIssue (encode pseudoTick) h

end Sys2Proof.Machine
end

