-- ==== Sys2Proof/Safety.lean ====
section
/-! DEFINITION. What counts as a sound state, in the terms the statements use: the invariants of 10_state.md R30, what
the buffers hold (10 R23, 20_memory.md R63), and what the link holds (10 R25, 40_serial_link.md R109). -/

namespace Sys2Proof.Machine

/-- The invariants (a) to (h) of R30. -/
structure CounterInv (s : State) : Prop where
  /-- (a) -/
  br_le : s.br.toNat ≤ 1024
  /-- (b) -/
  done_iff : s.st = .done ↔ s.br.toNat = 1024
  /-- (c) -/
  rc_le : s.rc.toNat ≤ 100
  /-- (c) -/
  timedOut_iff : s.rc.toNat = 100 ↔ s.st = .timedOut
  /-- (d) -/
  idle_zero : s.st = .idle → s.br = 0 ∧ s.rc = 0
  /-- (e) -/
  capturing_lt : s.st = .capturing → s.br.toNat ≤ 1023 ∧ s.rc.toNat ≤ 99
  /-- (f) -/
  done_rc : s.st = .done → s.rc = 0
  /-- (g) -/
  timedOut_br : s.st = .timedOut → s.br.toNat ≤ 1023
  /-- (h) -/
  disconnected_idle : s.conn = false → s.st = .idle

/-- The codes of R86: 0x6, 0x7, 0xD and 0xE are never written. -/
def legalResponse (c : BitVec 4) : Bool := decide (c ≠ 0x6 ∧ c ≠ 0x7 ∧ c ≠ 0xD ∧ c ≠ 0xE)

/-- A handle is held exactly while CONN = 1, with the line configured as R101 says (R25, R109). -/
structure LinkInv (s : State) : Prop where
  handle_iff : s.link.handle.isSome = s.conn
  configured : ∀ h, s.link.handle = some h → h.line = Config.lineConfig

/-- What the buffers hold: while Capturing, RAW holds BR specified bytes (R23); in Done all four buffers are fully
specified (R34) and CANON, THUMB and PREVIEW hold the decoding of RAW (R23, R172). -/
structure BufferInv (s : State) : Prop where
  received : s.st = .capturing → ∀ i < s.br.toNat, (s.mem.lookup (Config.rawBase + i)).isSome
  specified : s.st = .done → ∀ a, mapped a = true → (s.mem.lookup a).isSome
  canon : s.st = .done → ∀ i < 1024,
    byteAt s (Config.canonBase + i) = repackByte (bufferBytes Config.rawBase s) i
  thumb : s.st = .done → ∀ i < 32768,
    byteAt s (Config.thumbBase + i) =
      colorizeByte s.params.thumbRowOrder (bufferBytes Config.canonBase s) i
  preview : s.st = .done → ∀ i < 524288,
    byteAt s (Config.previewBase + i) = upscaleByte (bufferBytes Config.thumbBase s) i

/-- The bytes the reads since the last purge have returned, in order (R63). -/
def deliveredBytes (log : List LinkEvent) : List Byte :=
  log.foldl (fun acc e =>
    match e with
    | .purge => []
    | .read _ d => acc ++ d
    | .open_ _ _ | .close | .write _ _ => acc) []

/-- RAW offset n holds the n-th byte the link delivered after the START's purge, for n below BR (R63). -/
structure DeliveryInv (s : State) : Prop where
  capturing : s.st = .capturing → (deliveredBytes s.link.log).length = s.br.toNat
  done : s.st = .done → 1024 ≤ (deliveredBytes s.link.log).length
  stored : s.st = .capturing ∨ s.st = .done → ∀ i < s.br.toNat,
    s.mem.lookup (Config.rawBase + i) = (deliveredBytes s.link.log)[i]?

/-- A sound state. -/
structure Sound (s : State) : Prop where
  counters : CounterInv s
  memory : Memory.wf s.mem
  buffers : BufferInv s
  delivery : DeliveryInv s
  link : LinkInv s
  response : legalResponse s.resp = true

/-- Everything but the buffers is the same. -/
structure SameOutsideBuffers (s t : State) : Prop where
  st : t.st = s.st
  conn : t.conn = s.conn
  br : t.br = s.br
  rc : t.rc = s.rc
  resp : t.resp = s.resp
  epoch : t.epoch = s.epoch
  link : t.link = s.link
  env : t.env = s.env
  host : t.host = s.host
  engine : t.engine = s.engine
  params : t.params = s.params

/-- Every buffer byte outside the `n` bytes from `base` on is as before: the same listed byte, or unspecified as
before. -/
def SameMemoryOutside (base n : Nat) (s t : State) : Prop :=
  ∀ a, a < base ∨ base + n ≤ a → t.mem.lookup a = s.mem.lookup a

/-- An instruction run `n` times, stopping at the first fault or refusal. -/
def repeatExec (i : Instr) : Nat → State → Host.Outcome State Fault Refusal
  | 0, s => .next s
  | n + 1, s =>
    match exec i s with
    | .next t => repeatExec i n t
    | .fault r => .fault r
    | .refused r => .refused r

/-! ### The properties of 41_capture_session.md R138 -/

/-- R138 (a): across consecutive POLLs bytes-received is non-decreasing and at most 1024, and progress is
floor(BR * 100 / 1024). -/
def MonotonicProgress (s : State) : Prop :=
  ∀ n, ∃ t, repeatExec .poll n s = .next t ∧ s.br.toNat ≤ t.br.toNat ∧ t.br.toNat ≤ 1024 ∧
    (progress s).toNat ≤ (progress t).toNat ∧ (progress t).toNat = t.br.toNat * 100 / 1024

/-- R138 (b): POLL outside Capturing changes no state and no counter; only RESP takes EV_NOOP (R130). -/
def PollIsNoOp (s : State) : Prop := s.st ≠ .capturing → exec .poll s = .next { s with resp := 0x5 }

/-- The next `n` POLLs each read nothing, whatever the environment's reason. -/
def SilentPolls (n : Nat) (s : State) : Prop :=
  ∀ k < n, ∀ t, repeatExec .poll k s = .next t → readBytes 256 t = []

/-- R138 (c): from Capturing with RC = 0, exactly the 100th consecutive empty POLL, not the 99th, times out (R129). -/
def ExactRetryBound (s : State) : Prop :=
  s.st = .capturing → s.rc = 0 → SilentPolls 100 s →
    (∀ n, 1 ≤ n → n ≤ 99 → ∃ t, repeatExec .poll n s = .next t ∧ t.st = .capturing ∧
      t.rc.toNat = n ∧ t.br = s.br ∧ t.resp = 0x2) ∧
    ∃ t, repeatExec .poll 100 s = .next t ∧ t.st = .timedOut ∧ t.rc.toNat = 100 ∧ t.br = s.br ∧ t.resp = 0x4 ∧
      timeoutDiagnostic t = some (s.br, 1024) ∧ imageHandoff t = false ∧
      ∀ a, readBuffer a t = .error .bufferNotReadable

/-- R138 (d): a capture under polling ends, at the latest at the 102400th POLL. -/
def PollingEnds (s : State) : Prop :=
  s.st = .capturing → ∃ n ≤ 102400, ∃ t, repeatExec .poll n s = .next t ∧ (t.st = .done ∨ t.st = .timedOut)

/-- The next step answers a host word with EV_DONE. -/
def signalsHandoff (s : State) : Bool :=
  match s.engine, s.host with
  | none, .command _ :: _ =>
    match step s with
    | .next t => imageHandoff t
    | .fault _ | .refused _ => false
  | none, .reset :: _ | none, [] | some _, _ => false

/-- How many of the next `n` steps answer a host word with EV_DONE. -/
def handoffCount : Nat → State → Nat
  | 0, _ => 0
  | n + 1, s =>
    (signalsHandoff s).toNat +
      match step s with
      | .next t => handoffCount n t
      | .fault _ | .refused _ => 0

/-- R138 (e): where the host issues no further START, at most one EV_DONE comes, and none where no capture is under
way. -/
def AtMostOneHandoff (s : State) : Prop :=
  (∀ w, .command w ∈ s.host → decode .host w ≠ .ok .start) →
    ∀ n, handoffCount n s ≤ 1 ∧ (s.st ≠ .capturing → handoffCount n s = 0)

/-- The number of set bits of the `n` bytes from offset 0 on. -/
def setBits (n : Nat) (bytes : Nat → Byte) : Nat :=
  ((List.range n).map fun a => ((List.range 8).filter fun i => bitOf (bytes a) i).length).sum

/-- The sum of the `n` bytes from offset 0 on (R175). -/
def byteSum (n : Nat) (bytes : Nat → Byte) : Nat := ((List.range n).map fun a => (bytes a).toNat).sum

/-- ST, CONN, BR, RC and RESP together. -/
def registers (s : State) : St × Bool × BitVec 11 × BitVec 7 × BitVec 4 := (s.st, s.conn, s.br, s.rc, s.resp)

/-- The rows of the transition table of R135, from the state before a command (none: an illegal word) to the state
after; `TableRow s c t` holds where some row does. -/
inductive TableRow (s : State) : Option Instr → State → Prop where
  | illegal (t : State) : registers t = (s.st, s.conn, s.br, s.rc, 0xF) → TableRow s none t
  | connectOk (p : Nat) (t : State) : s.st = .idle → s.conn = false → openAnswer s.env = .ok →
      registers t = (.idle, true, 0, 0, 0x0) → TableRow s (some (.connect p)) t
  | connectUnavailable (p : Nat) (t : State) : s.st = .idle → s.conn = false →
      openAnswer s.env = .portUnavailable →
      registers t = (.idle, false, 0, 0, 0x8) → TableRow s (some (.connect p)) t
  | connectRejected (p : Nat) (t : State) : s.st = .idle → s.conn = false →
      openAnswer s.env = .configurationRejected →
      registers t = (.idle, false, 0, 0, 0x9) → TableRow s (some (.connect p)) t
  | connectAgain (p : Nat) (t : State) : s.conn = true →
      registers t = (s.st, true, s.br, s.rc, 0xC) → TableRow s (some (.connect p)) t
  | disconnectUnconnected (t : State) : s.st = .idle → s.conn = false →
      registers t = (.idle, false, 0, 0, 0x0) → TableRow s (some .disconnect) t
  | disconnect (t : State) : s.conn = true →
      registers t = (.idle, false, 0, 0, 0x0) → TableRow s (some .disconnect) t
  | startUnconnected (t : State) : s.st = .idle → s.conn = false →
      registers t = (.idle, false, 0, 0, 0xB) → TableRow s (some .start) t
  | startOk (t : State) : s.conn = true → writeAnswer s.env = .ok →
      registers t = (.capturing, true, 0, 0, 0x0) → TableRow s (some .start) t
  | startFails (sent kept : Nat) (t : State) : s.conn = true → writeAnswer s.env = .error sent kept →
      registers t = (.idle, true, 0, 0, 0xA) → TableRow s (some .start) t
  | pollIdle (t : State) : s.st = .idle →
      registers t = (.idle, s.conn, 0, 0, 0x5) → TableRow s (some .poll) t
  | pollDone (t : State) : s.st = .done →
      registers t = (.done, s.conn, 1024, 0, 0x5) → TableRow s (some .poll) t
  | pollTimedOut (t : State) : s.st = .timedOut →
      registers t = (.timedOut, s.conn, s.br, 100, 0x5) → TableRow s (some .poll) t
  | pollData (d : List Byte) (k : Nat) (t : State) : s.st = .capturing → d = readBytes 256 s →
      k = min d.length (1024 - s.br.toNat) → 1 ≤ d.length → s.br.toNat + k < 1024 →
      registers t = (.capturing, s.conn, BitVec.ofNat 11 (s.br.toNat + k), 0, 0x1) → TableRow s (some .poll) t
  | pollComplete (d : List Byte) (k : Nat) (t : State) : s.st = .capturing → d = readBytes 256 s →
      k = min d.length (1024 - s.br.toNat) → 1 ≤ d.length → s.br.toNat + k = 1024 →
      registers t = (.done, s.conn, 1024, 0, 0x3) → TableRow s (some .poll) t
  | pollEmpty (t : State) : s.st = .capturing → readBytes 256 s = [] → s.rc.toNat + 1 < 100 →
      registers t = (.capturing, s.conn, s.br, s.rc + 1, 0x2) → TableRow s (some .poll) t
  | pollTimeout (t : State) : s.st = .capturing → readBytes 256 s = [] → s.rc.toNat + 1 = 100 →
      registers t = (.timedOut, s.conn, s.br, 100, 0x4) → TableRow s (some .poll) t

/-- The store's ids rise strictly, are at least 1, and stay below `next_id`; the selection is in range (44 R190, R191,
R194, R196). -/
structure StoreInv (store : ImageStore) : Prop where
  rising : store.images.Pairwise (fun a b => a.id < b.id)
  positive : ∀ image ∈ store.images, 1 ≤ image.id
  fresh : ∀ image ∈ store.images, image.id < store.nextId
  nextId : 1 ≤ store.nextId
  selection : ∀ i, store.selected = some i → i < store.images.length

end Sys2Proof.Machine
end

