-- ==== Sys2Proof/Certificates/Slice0/Obligations.lean ====
section
/-! DEFINITION. The statements for the provers. Each docstring names the rule of spec/ it formalises; "log n" is
notes/assumptions/n.md. Where that rule ends in "[decision: …]" or "[derived: …]", the choice or the inference is the
spec's own, and the statement's basis in OBLIGATIONS.json is 'derived'. -/

open Sys2Proof Sys2Proof.Machine

/-! ### Encoding and the two ports -/

/-- Decode and encode agree, for every well-formed instruction and every operand; on the other port the same word is
no instruction (R81 to R84, R91). -/
def Obligations.DecodeOfEncode : Prop :=
  ∀ i : Instr, i.wellFormed = true →
    decode i.port (encode i) = .ok i ∧ ∀ port, port ≠ i.port → ∃ e, decode port (encode i) = .error e

/-- Every word a port accepts is the encoding of what it decodes to, which is well formed and of that port (R82 to
R84, R91). -/
def Obligations.EncodeOfDecode : Prop :=
  ∀ (port : Port) (w : Word) (i : Instr), decode port w = .ok i → encode i = w ∧ i.wellFormedOn port = true

/-- A word decodes to a row's instruction exactly when (W AND mask) = match of that row, CONNECT's operand being the
low byte (R82, R83). -/
def Obligations.DecodeSelectsTableRow : Prop :=
  ∀ (w : Word) (i : Instr),
    decode i.port w = .ok i ↔
      (w &&& rowMask i = rowMatch i ∧ ∀ p, i = .connect p → p = w.toNat % 256)

/-- The reserved words of R85 and the three engine words are exactly the words the host port rejects, and each of them
changes nothing but RESP, which takes ERR_ILLEGAL_CMD. -/
def Obligations.IllegalHostWords : Prop :=
  ∀ w : Word,
    (((w.toNat / 256 = 0x00 ∨ (0x05 ≤ w.toNat / 256 ∧ w.toNat / 256 ≤ 0x0F) ∨ 0x13 ≤ w.toNat / 256) ∨
        (w.toNat / 256 ∈ [0x02, 0x03, 0x04, 0x10, 0x11, 0x12] ∧ w.toNat % 256 ≠ 0) ∨
        w ∈ [(0x1000 : Word), 0x1100, 0x1200]) ↔ ∃ e, decode .host w = .error e) ∧
    ∀ (s : State) (rest : List HostEvent), s.engine = none → s.host = .command w :: rest →
      (∃ e, decode .host w = .error e) → step s = .next { s with host := rest, resp := 0xF }

/-- A word on the engine port that is none of the three engine words is refused by name: R85 gives it no meaning. -/
def Obligations.EnginePortRefusesOtherWords : Prop :=
  ∀ (s : State) (w : Word), s.engine = some w → w ∉ [(0x1000 : Word), 0x1100, 0x1200] →
    step s = .refused (.notAnEngineWord w)

/-- A step runs the instruction the presented word decodes to, on either port, after the word has left the port (log 1,
log 2: the ports as fields of State are the model's). -/
def Obligations.StepRunsDecodedInstruction : Prop :=
  (∀ (s : State) (w : Word) (rest : List HostEvent) (i : Instr), s.engine = none → s.host = .command w :: rest →
    decode .host w = .ok i → step s = exec i { s with host := rest }) ∧
  (∀ (s : State) (w : Word) (i : Instr), s.engine = some w → decode .engine w = .ok i →
    step s = exec i { s with engine := none })

/-- With no command presented the block waits (R218, R232). -/
def Obligations.StepWaitsWithoutCommand : Prop :=
  ∀ s : State, s.engine = none → s.host = [] → step s = .next s

/-- A well-formed instruction's word, presented with `withFetchWord`, is what the next step runs (log 2). -/
def Obligations.PresentedWordRuns : Prop :=
  ∀ (s : State) (i : Instr), i.wellFormed = true →
    step (s.withFetchWord 16 (encode i).toNat) = exec i { s with engine := none } ∧
    decodeTableWord 16 (encode i).toNat = some i

/-- Some words of 95_test_vectors.md 2.1 decode as listed there. -/
def Obligations.DecodedWordSamples : Prop :=
  decode .host 0x0100 = .ok (.connect 0) ∧ decode .host 0x0103 = .ok (.connect 3) ∧
  decode .host 0x01FF = .ok (.connect 255) ∧ decode .host 0x0200 = .ok .disconnect ∧
  decode .host 0x0300 = .ok .start ∧ decode .host 0x0400 = .ok .poll ∧
  decode .engine 0x1000 = .ok .repack ∧ decode .engine 0x1100 = .ok .colorize ∧
  decode .engine 0x1200 = .ok .upscale ∧ decode .host 0x0201 = .error .reserved ∧
  decode .host 0x1000 = .error .engineWordOnHostPort ∧ decode .host 0x4141 = .error .reserved

/-! ### CONNECT and DISCONNECT -/

/-- CONNECT p: its word, and in each of its four cases what it leaves and everything it does not touch (R108). The
environment's answer is used up (log 3). -/
def Obligations.ConnectOutcomes : Prop :=
  ∀ (p : Nat) (s : State),
    (p < 256 → (encode (.connect p)).toNat = 0x0100 + p) ∧
    (s.conn = true → exec (.connect p) s = .next { s with resp := 0xC }) ∧
    (s.conn = false → openAnswer s.env = .portUnavailable →
      exec (.connect p) s = .next
        { s with
          resp := 0x8, env := openAnswered s.env
          link := { s.link with handle := none, log := s.link.log ++ [.open_ p .portUnavailable] } }) ∧
    (s.conn = false → openAnswer s.env = .configurationRejected →
      exec (.connect p) s = .next
        { s with
          resp := 0x9, env := openAnswered s.env
          link := { s.link with handle := none, log := s.link.log ++ [.open_ p .configurationRejected] } }) ∧
    (s.conn = false → openAnswer s.env = .ok →
      exec (.connect p) s = .next
        { s with
          conn := true, resp := 0x0, env := openAnswered s.env
          link :=
            { handle := some { port := p, line := Config.lineConfig }, rx := [], tx := []
              log := s.link.log ++ [.open_ p .ok, .purge] } })

/-- A successful CONNECT has configured the line as R101 lists it. -/
def Obligations.ConnectConfiguresTheLine : Prop :=
  ∀ (p : Nat) (s : State), s.conn = false → openAnswer s.env = .ok →
    ∃ t h, exec (.connect p) s = .next t ∧ t.link.handle = some h ∧ h.port = p ∧
      h.line.baud = 115200 ∧ h.line.dataBits = 8 ∧ h.line.parity = .none ∧ h.line.stopBits = 1 ∧
      h.line.binaryTransparency = true ∧ h.line.dtr = true ∧ h.line.rts = true ∧
      h.line.nonBlockingRead = true ∧ h.line.writeTimeoutMs = 1000

/-- DISCONNECT: its word; with a connection it closes it and forces Idle, without one it writes RESP only; nothing can
be read from the buffers afterwards where it closed, and a second DISCONNECT changes nothing (R110). What the buffers and the link's
queues then hold is open (log 4, log 6). -/
def Obligations.DisconnectOutcomes : Prop :=
  ∀ s : State,
    encode .disconnect = 0x0200 ∧
    (s.conn = false → exec .disconnect s = .next { s with resp := 0x0 }) ∧
    (s.conn = true →
      ∃ t m n rx tx,
        t = { s with
          conn := false, st := .idle, br := 0, rc := 0, resp := 0x0, mem := m, epoch := n, env := closeAnswered s.env
          link := { handle := none, rx := rx, tx := tx, log := s.link.log ++ [.close] } } ∧
        exec .disconnect s = .next t ∧ ∀ a, readBuffer a t = .error .bufferNotReadable) ∧
    (∀ t, exec .disconnect s = .next t → exec .disconnect t = .next t)

/-- DISCONNECT reaches the register state of a reset, whatever came before (R231). -/
def Obligations.DisconnectReachesResetRegisters : Prop :=
  ∀ s : State, CounterInv s → LinkInv s →
    ∃ t, exec .disconnect s = .next t ∧ t.st = State.reset.st ∧ t.conn = State.reset.conn ∧
      t.br = State.reset.br ∧ t.rc = State.reset.rc ∧ t.link.handle = State.reset.link.handle

/-! ### START -/

/-- START with no connection: no link primitive, no register but RESP (R122). -/
def Obligations.StartWithoutConnection : Prop :=
  ∀ s : State, s.conn = false →
    exec .start s = .next { s with resp := 0xB } ∧ (CounterInv s → s.st = .idle)

/-- START whose write succeeds: the link is purged, then the two token bytes and nothing else are written in one call,
the counters are 0 and the state is Capturing (R88, R121). "From every state" is the spec's own decision D10 (R123); in
Capturing under abandon_only START does what `StartAbandonsOnly` says. The buffers cannot be read afterwards (R54); what
they hold is open (R34, log 6). The answer to the write is the environment's (log 3), the log of calls the model's
(log 5). -/
def Obligations.StartSendsToken : Prop :=
  ∀ s : State, s.conn = true → (s.st = .capturing → s.params.startWhileCapturing = .restart) →
    writeAnswer s.env = .ok →
      ∃ t m n,
        t = { s with
          st := .capturing, br := 0, rc := 0, resp := 0x0, mem := m, epoch := n, env := writeAnswered s.env
          link := { s.link with
            rx := [], tx := [], log := s.link.log ++ [.purge, .write [0x41, 0x41] .ok] } } ∧
        exec .start s = .next t ∧ progress t = 0 ∧ ∀ a, readBuffer a t = .error .bufferNotReadable

/-- START whose write fails: Idle with counters 0 and ERR_WRITE whatever the state was; the purge is not undone (R124).
How much of the token went out, and what stays unsent, is open (log 4). -/
def Obligations.StartWriteFailure : Prop :=
  ∀ (s : State) (sent kept : Nat), s.conn = true →
    (s.st = .capturing → s.params.startWhileCapturing = .restart) →
    writeAnswer s.env = .error sent kept →
      ∃ t m n tx,
        t = { s with
          st := .idle, br := 0, rc := 0, resp := 0xA, mem := m, epoch := n, env := writeAnswered s.env
          link := { s.link with
            rx := [], tx := tx, log := s.link.log ++ [.purge, .write [0x41, 0x41] (.error sent kept)] } } ∧
        exec .start s = .next t ∧ ∀ a, readBuffer a t = .error .bufferNotReadable

/-- With START_WHILE_CAPTURING = abandon_only, a START in Capturing abandons the capture, calls no link primitive and
returns OK (R123). -/
def Obligations.StartAbandonsOnly : Prop :=
  ∀ s : State, s.conn = true → s.st = .capturing → s.params.startWhileCapturing = .abandonOnly →
    ∃ m n, exec .start s = .next
      { s with st := .idle, br := 0, rc := 0, resp := 0x0, mem := m, epoch := n }

/-! ### POLL -/

/-- POLL while Idle, Done or TimedOut is a no-op: RESP takes EV_NOOP, "which is this spec's addition", nothing
else changes, the link is not read (R130, R138 (b)). -/
def Obligations.PollOutsideCapturing : Prop := ∀ s : State, PollIsNoOp s

/-- The data branch of POLL short of completion: min(|d|, 1024 − BR) bytes are stored at the current offset of RAW, BR
grows by as many, RC is 0; every byte outside the stored ones and everything else is unchanged (R126). -/
def Obligations.PollStoresData : Prop :=
  ∀ (s : State) (d : List Byte) (k : Nat), s.st = .capturing → d = readBytes 256 s → 1 ≤ d.length →
    k = min d.length (1024 - s.br.toNat) → s.br.toNat + k < 1024 →
      1 ≤ k ∧
      ∃ m rx,
        exec .poll s = .next
          { s with
            br := BitVec.ofNat 11 (s.br.toNat + k), rc := 0, resp := 0x1, mem := m, env := readAnswered s.env
            link := { s.link with rx := rx, log := s.link.log ++ [.read 256 d] } } ∧
        d ++ rx = unreadBytes s ∧
        (∀ i < k, m.lookup (s.br.toNat + i) = d[i]?) ∧
        (∀ a, a < s.br.toNat ∨ s.br.toNat + k ≤ a → m.lookup a = s.mem.lookup a)

/-- The completing POLL: the first 1024 − BR bytes are stored, the others of the read are dropped; REPACK, COLORIZE and
UPSCALE run in this order; ST = Done, BR = 1024, RC = 0, RESP = EV_DONE (R127, R132). -/
def Obligations.PollCompletesCapture : Prop :=
  ∀ (s : State) (d : List Byte) (k : Nat), s.st = .capturing → d = readBytes 256 s → 1 ≤ d.length →
    k = min d.length (1024 - s.br.toNat) → s.br.toNat + k = 1024 →
      ∃ u m rx u1 u2 u3,
        u = { s with
          br := 1024, rc := 0, mem := m, env := readAnswered s.env
          link := { s.link with rx := rx, log := s.link.log ++ [.read 256 d] } } ∧
        d ++ rx = unreadBytes s ∧
        (∀ i < k, m.lookup (s.br.toNat + i) = d[i]?) ∧
        (∀ a, a < s.br.toNat ∨ s.br.toNat + k ≤ a → m.lookup a = s.mem.lookup a) ∧
        exec .repack u = .next u1 ∧ exec .colorize u1 = .next u2 ∧ exec .upscale u2 = .next u3 ∧
        exec .poll s = .next { u3 with st := .done, resp := 0x3 }

/-- The empty branch of POLL: RC grows by one; at 100 the state is TimedOut with BR kept as the diagnostic (BR, 1024)
and nothing of the buffers can be read (R128, R129). What the buffers then hold is open (log 6). -/
def Obligations.PollEmptyAndTimeout : Prop :=
  ∀ s : State, s.st = .capturing → readBytes 256 s = [] →
    (s.rc.toNat + 1 < 100 →
      exec .poll s = .next
        { s with
          rc := s.rc + 1, resp := 0x2, env := readAnswered s.env
          link := { s.link with rx := unreadBytes s, log := s.link.log ++ [.read 256 []] } }) ∧
    (s.rc.toNat + 1 = 100 →
      ∃ t m n,
        t = { s with
          st := .timedOut, rc := 100, resp := 0x4, mem := m, epoch := n, env := readAnswered s.env
          link := { s.link with rx := unreadBytes s, log := s.link.log ++ [.read 256 []] } } ∧
        exec .poll s = .next t ∧ timeoutDiagnostic t = some (s.br, 1024) ∧
        ∀ a, readBuffer a t = .error .bufferNotReadable)

/-- Exactly 100 consecutive empty polls, not 99, end a capture in TimedOut, with the diagnostic (BR, 1024), no image
handoff and no buffer readable (R129, R138 (c)). A POLL is empty when its read returns nothing, whether the
environment's answer is scripted or drawn (log 3). RESP's codes and the unreadable buffers are the spec's own decisions
(D5, D9). -/
def Obligations.HundredEmptyPollsTimeOut : Prop := ∀ s : State, ExactRetryBound s

/-- A capture cannot stay in Capturing for ever under polling: within 102400 POLLs the state is Done or TimedOut,
whatever the environment answers (R138 (d)). -/
def Obligations.PollingEndsWithinBound : Prop := ∀ s : State, CounterInv s → PollingEnds s

/-- Across consecutive POLLs bytes-received is non-decreasing and at most 1024, and progress is
floor(BR * 100 / 1024) (R138 (a)). -/
def Obligations.ProgressIsMonotonic : Prop := ∀ s : State, CounterInv s → MonotonicProgress s

/-! ### REPACK -/

/-- REPACK completes in every state; each CANON byte gathers one bit from each of 8 consecutive RAW bytes, the bit of
the lowest-addressed byte most significant; per pixel, canonpix(x, r) = rawpix(x, 63 − r). Nothing else changes
(R155). -/
def Obligations.RepackResult : Prop :=
  ∀ s : State, ∃ t, exec .repack s = .next t ∧ SameOutsideBuffers s t ∧ SameMemoryOutside 0x00400 1024 s t ∧
    (∀ r < 64, ∀ q < 16, ∃ b, t.mem.lookup (0x00400 + (r * 16 + q)) = some b ∧
      b.toNat = ((List.range 8).map fun j =>
        (byteAt s (0x00000 + ((8 * q + j) + (63 - r) / 8 * 128))).toNat / 2 ^ ((63 - r) % 8) % 2 *
          2 ^ (7 - j)).sum) ∧
    (∀ x < 128, ∀ r < 64,
      bitOf (byteAt t (0x00400 + (x / 8 + r * 16))) (7 - x % 8) =
        bitOf (byteAt s (0x00000 + (x + (63 - r) / 8 * 128))) ((63 - r) % 8))

/-- The maps from a pixel to its source bit and to its destination bit are each one-to-one and onto the 8192 bits of
their buffer (R154). -/
def Obligations.RepackAddressesBijective : Prop :=
  (∀ x < 128, ∀ y < 64, rawOffset x y < 1024 ∧ rawBit y < 8 ∧
    canonOffset x (flipRow y) < 1024 ∧ canonBit x < 8) ∧
  (∀ a < 1024, ∀ b < 8, ∃ x < 128, ∃ y < 64, rawOffset x y = a ∧ rawBit y = b ∧
    ∀ x' < 128, ∀ y' < 64, rawOffset x' y' = a → rawBit y' = b → x' = x ∧ y' = y) ∧
  (∀ a < 1024, ∀ b < 8, ∃ x < 128, ∃ y < 64, canonOffset x (flipRow y) = a ∧ canonBit x = b ∧
    ∀ x' < 128, ∀ y' < 64, canonOffset x' (flipRow y') = a → canonBit x' = b → x' = x ∧ y' = y)

/-- REPACK preserves the number of set bits of the frame (R154). -/
def Obligations.RepackPreservesSetBits : Prop :=
  ∀ s : State, ∃ t, exec .repack s = .next t ∧
    setBits 1024 (bufferBytes Config.canonBase t) = setBits 1024 (bufferBytes Config.rawBase s)

/-- REPACK is invertible: the RawFrame is recovered from CANON by the formula of R157. -/
def Obligations.RepackInvertible : Prop :=
  ∀ s : State, ∃ t, exec .repack s = .next t ∧
    (∀ x < 128, ∀ y < 64,
      rawPixel (bufferBytes Config.rawBase s) x y = canonPixel (bufferBytes Config.canonBase t) x (63 - y)) ∧
    ∀ x < 128, ∀ band < 8,
      (byteAt s (0x00000 + (x + band * 128))).toNat =
        ((List.range 8).map fun i =>
          (canonPixel (bufferBytes Config.canonBase t) x (63 - (8 * band + i))).toNat * 2 ^ i).sum

/-- REPACK, whose word is 0x1000, leaves the state the loops of R151 leave. -/
def Obligations.RepackLoopAgrees : Prop :=
  encode .repack = 0x1000 ∧ ∀ s : State, Memory.wf s.mem → exec .repack s = .next (repackLoop s)

/-! ### COLORIZE, UPSCALE and the decode -/

/-- COLORIZE completes in every state; every thumbnail pixel is dark where its CANON bit is set and light where it is
clear, in both values of THUMB_ROW_ORDER; nothing else changes (R166, R168). -/
def Obligations.ColorizeResult : Prop :=
  ∀ s : State, ∃ t, exec .colorize s = .next t ∧ SameOutsideBuffers s t ∧ SameMemoryOutside 0x08000 32768 s t ∧
    ∀ x < 128, ∀ y < 64, ∀ r, r = (if s.params.thumbRowOrder = .rawOrder then 63 - y else y) →
      (bitOf (byteAt s (0x00400 + (x / 8 + r * 16))) (7 - x % 8) = true →
        ∀ c < 4, t.mem.lookup (0x08000 + ((y * 128 + x) * 4 + c)) = ([0x00, 0x00, 0x00, 0xFF] : List Byte)[c]?) ∧
      (bitOf (byteAt s (0x00400 + (x / 8 + r * 16))) (7 - x % 8) = false →
        ∀ c < 4, t.mem.lookup (0x08000 + ((y * 128 + x) * 4 + c)) = ([0xDE, 0xEB, 0xFF, 0xFF] : List Byte)[c]?)

/-- COLORIZE, whose word is 0x1100, leaves the state the loops of R166 leave. -/
def Obligations.ColorizeLoopAgrees : Prop :=
  encode .colorize = 0x1100 ∧ ∀ s : State, Memory.wf s.mem → exec .colorize s = .next (colorizeLoop s)

/-- UPSCALE completes in every state; every 4 × 4 block of the preview is uniform and equal to its thumbnail pixel, all
four bytes of it; nothing else changes (R169, R171). -/
def Obligations.UpscaleResult : Prop :=
  ∀ s : State, ∃ t, exec .upscale s = .next t ∧ SameOutsideBuffers s t ∧ SameMemoryOutside 0x80000 524288 s t ∧
    (∀ x < 128, ∀ y < 64, ∀ dx < 4, ∀ dy < 4, ∀ c < 4,
      t.mem.lookup (0x80000 + (((4 * y + dy) * 512 + 4 * x + dx) * 4 + c)) =
        some (byteAt s (0x08000 + ((y * 128 + x) * 4 + c)))) ∧
    (∀ X < 512, ∀ Y < 256, ∀ c < 4,
      byteAt t (0x80000 + ((Y * 512 + X) * 4 + c)) =
        byteAt s (0x08000 + ((Y / 4 * 128 + X / 4) * 4 + c)))

/-- UPSCALE, whose word is 0x1200, leaves the state the loops of R169 leave. -/
def Obligations.UpscaleLoopAgrees : Prop :=
  encode .upscale = 0x1200 ∧ ∀ s : State, Memory.wf s.mem → exec .upscale s = .next (upscaleLoop s)

/-- The whole decode: each thumbnail and preview pixel is the colour of the RawFrame bit of R173, in both row orders;
with raw_order this is the round trip of R174. -/
def Obligations.DecodeFromRawFrame : Prop :=
  ∀ s : State, ∃ s1 s2 t,
    exec .repack s = .next s1 ∧ exec .colorize s1 = .next s2 ∧ exec .upscale s2 = .next t ∧
    (s.params.thumbRowOrder = .rawOrder →
      (∀ x < 128, ∀ y < 64, memRead t (0x08000 + (y * 128 + x) * 4) 4 =
        colour (bitOf (byteAt s (0x00000 + (x + y / 8 * 128))) (y % 8))) ∧
      (∀ X < 512, ∀ Y < 256, memRead t (0x80000 + (Y * 512 + X) * 4) 4 =
        colour (bitOf (byteAt s (0x00000 + (X / 4 + Y / 32 * 128))) (Y / 4 % 8)))) ∧
    (s.params.thumbRowOrder = .canonicalOrder →
      (∀ x < 128, ∀ y < 64, memRead t (0x08000 + (y * 128 + x) * 4) 4 =
        colour (bitOf (byteAt s (0x00000 + (x + (63 - y) / 8 * 128))) ((63 - y) % 8))) ∧
      (∀ X < 512, ∀ Y < 256, memRead t (0x80000 + (Y * 512 + X) * 4) 4 =
        colour (bitOf (byteAt s (0x00000 + (X / 4 + (63 - Y / 4) / 8 * 128))) ((63 - Y / 4) % 8))))

/-- The decode depends on the 1024 bytes of RAW and on nothing else: two states with the same RawFrame get the same
bytes at every mapped address, whatever their registers, link and earlier contents (R172). -/
def Obligations.DecodeDependsOnlyOnRaw : Prop :=
  ∀ s s' : State, s.params = s'.params → (∀ i < 1024, byteAt s i = byteAt s' i) →
    ∃ s1 s2 t s1' s2' t',
      exec .repack s = .next s1 ∧ exec .colorize s1 = .next s2 ∧ exec .upscale s2 = .next t ∧
      exec .repack s' = .next s1' ∧ exec .colorize s1' = .next s2' ∧ exec .upscale s2' = .next t' ∧
      ∀ a, mapped a = true → byteAt t a = byteAt t' a

/-- Counting: as many dark thumbnail pixels as set bits of the RawFrame, 16 times as many in the preview, and the sums
of the bytes of both rasters (R175). -/
def Obligations.CountingDarkPixels : Prop :=
  ∀ s : State, ∃ s1 s2 t,
    exec .repack s = .next s1 ∧ exec .colorize s1 = .next s2 ∧ exec .upscale s2 = .next t ∧
    ((List.range 8192).filter fun p => decide (memRead t (0x08000 + p * 4) 4 = Config.colorDark)).length =
      setBits 1024 (bufferBytes Config.rawBase s) ∧
    ((List.range 131072).filter fun p => decide (memRead t (0x80000 + p * 4) 4 = Config.colorDark)).length =
      16 * setBits 1024 (bufferBytes Config.rawBase s) ∧
    byteSum 32768 (bufferBytes Config.thumbBase t) + 712 * setBits 1024 (bufferBytes Config.rawBase s) =
      8192 * 967 ∧
    byteSum 524288 (bufferBytes Config.previewBase t) = 16 * byteSum 32768 (bufferBytes Config.thumbBase t)

/-! ### Reset -/

/-- The registers after reset, as the host reads them; no buffer byte can be read and no handle is held (R39, R230). -/
def Obligations.ResetRegisters : Prop :=
  State.reset.st = .idle ∧ State.reset.conn = false ∧ State.reset.link.handle = none ∧
  readRegister 0 State.reset = .ok 0 ∧ readRegister 1 State.reset = .ok 0 ∧ readRegister 2 State.reset = .ok 0 ∧
  readRegister 3 State.reset = .ok 0 ∧ readRegister 4 State.reset = .ok 0 ∧
  readRegister 5 State.reset = .ok 1024 ∧ ∀ a, readBuffer a State.reset = .error .bufferNotReadable

/-- A reset at any time puts the block in the register state of R230, with no handle held, no buffer byte readable and
no image handoff; that the link's queues and the environment are left to the environment is the model's (log 11). -/
def Obligations.ResetEvent : Prop :=
  ∀ (s : State) (rest : List HostEvent), s.engine = none → s.host = .reset :: rest →
    ∃ t m n rx tx,
      t = { s with
        st := .idle, conn := false, br := 0, rc := 0, resp := 0x0, mem := m, epoch := n, env := closeAnswered s.env
        host := rest, engine := none
        link := { handle := none, rx := rx, tx := tx, log := s.link.log } } ∧
      step s = .next t ∧ imageHandoff t = false ∧ ∀ a, readBuffer a t = .error .bufferNotReadable

/-- The state after reset is sound: every invariant below holds of it. -/
def Obligations.ResetIsSound : Prop := Sound State.reset

/-! ### Invariants every step keeps -/

/-- Every step keeps the invariants (a) to (h) of R30. -/
def Obligations.StepKeepsCounters : Prop :=
  ∀ s t : State, CounterInv s → step s = .next t → CounterInv t

/-- Every step keeps the canonical form of the buffer memory, and so lists mapped addresses only (R52). -/
def Obligations.StepKeepsMemoryForm : Prop :=
  ∀ s t : State, Memory.wf s.mem → step s = .next t → Memory.wf t.mem

/-- Every step keeps what R23 and R34 say the buffers hold: the received bytes while Capturing, the complete decoding
of RAW in Done. -/
def Obligations.StepKeepsBuffers : Prop :=
  ∀ s t : State, CounterInv s → BufferInv s → step s = .next t → BufferInv t

/-- Every step keeps that RAW offset n holds the n-th byte the link delivered after the START's purge (R63). -/
def Obligations.StepKeepsDelivery : Prop :=
  ∀ s t : State, CounterInv s → DeliveryInv s → step s = .next t → DeliveryInv t

/-- Every step keeps that a handle is held exactly while CONN = 1, on a line configured as R101 says (R25, R109). -/
def Obligations.StepKeepsLink : Prop :=
  ∀ s t : State, LinkInv s → step s = .next t → LinkInv t

/-- Codes 0x6, 0x7, 0xD and 0xE are never written to RESP (R86). -/
def Obligations.StepKeepsLegalResponse : Prop :=
  ∀ s t : State, legalResponse s.resp = true → step s = .next t → legalResponse t.resp = true

/-- The parameters of R12 are fixed: no step changes them (log 8). -/
def Obligations.StepKeepsParameters : Prop :=
  ∀ s t : State, step s = .next t → t.params = s.params

/-! ### Rules about the whole machine -/

/-- The step that takes a host word is a row of the transition table, and ST changes in no other step but a reset
(R135). -/
def Obligations.StepFollowsTransitionTable : Prop :=
  (∀ (s : State) (w : Word) (rest : List HostEvent), CounterInv s → s.params.startWhileCapturing = .restart →
    s.engine = none → s.host = .command w :: rest →
      ∃ t, step s = .next t ∧ TableRow s (decode .host w).toOption t) ∧
  ∀ s t : State, step s = .next t → t.st ≠ s.st →
    s.engine = none ∧ ∃ rest, s.host = .reset :: rest ∨ ∃ w, s.host = .command w :: rest

/-- EV_DONE, the image handoff, is the answer of a POLL in Capturing that brings BR from below 1024 to 1024, and of
no other command (R30 (i), R131); and each capture started yields at most one (R138 (e)). -/
def Obligations.HandoffOnlyAtCompletion : Prop :=
  (∀ (i : Instr) (s t : State), CounterInv s → i.port = .host → exec i s = .next t → imageHandoff t = true →
    i = .poll ∧ s.st = .capturing ∧ s.br.toNat < 1024 ∧ t.br.toNat = 1024 ∧ t.st = .done) ∧
  ∀ s : State, AtMostOneHandoff s

/-- Done and TimedOut are left by DISCONNECT to Idle, by START to Capturing, or to Idle where its write fails, and by
nothing else but reset: POLL is a no-op there and CONNECT is refused (R136). RESP's codes and the refusal of CONNECT are
the spec's own decisions (D5, D12). -/
def Obligations.TerminalStatesLeftOnly : Prop :=
  ∀ s : State, CounterInv s → s.st = .done ∨ s.st = .timedOut →
    (∃ t, exec .disconnect s = .next t ∧ t.st = .idle) ∧
    (writeAnswer s.env = .ok → ∃ t, exec .start s = .next t ∧ t.st = .capturing) ∧
    (∀ sent kept, writeAnswer s.env = .error sent kept → ∃ t, exec .start s = .next t ∧ t.st = .idle) ∧
    exec .poll s = .next { s with resp := 0x5 } ∧
    (∀ p, exec (.connect p) s = .next { s with resp := 0xC }) ∧
    ∀ t, step s = .next t → t.st ≠ s.st →
      s.engine = none ∧ ∃ rest, s.host = .reset :: rest ∨
        ∃ w, s.host = .command w :: rest ∧
          (decode .host w = .ok .disconnect ∨ decode .host w = .ok .start)

/-- A capture in progress is cancelled by DISCONNECT and by another START, which discard the partial data without an
image handoff; it ends in Idle or loses received bytes by nothing else but reset (R137). That discarded data is a memory
that lists no byte is the model's choice (log 6). -/
def Obligations.CaptureCancelledOnly : Prop :=
  ∀ s : State, CounterInv s → s.st = .capturing →
    (∀ i, i = .disconnect ∨ i = .start →
      ∃ t, exec i s = .next t ∧ t.br = 0 ∧ t.mem = [] ∧ imageHandoff t = false ∧
        ∀ a, readBuffer a t = .error .bufferNotReadable) ∧
    ∀ t, step s = .next t → t.st = .idle ∨ t.br.toNat < s.br.toNat →
      imageHandoff t = false ∧ s.engine = none ∧ ∃ rest, s.host = .reset :: rest ∨
        ∃ w, s.host = .command w :: rest ∧
          (decode .host w = .ok .disconnect ∨ decode .host w = .ok .start)

/-! ### What the host reads -/

/-- The register map of R31: STATUS packs ST, CONN and OUTV; the others are zero-extended; a number above 5 is
refused. -/
def Obligations.RegisterReads : Prop :=
  ∀ s : State,
    (∃ v, readRegister 0 s = .ok v ∧
      v.toNat = (stCode s.st).toNat + 4 * s.conn.toNat + 8 * (outputValid s).toNat) ∧
    (outputValid s = true ↔ s.st = .done) ∧
    (∃ v, readRegister 1 s = .ok v ∧ v.toNat = s.br.toNat) ∧
    (∃ v, readRegister 2 s = .ok v ∧ v.toNat = s.rc.toNat) ∧
    (∃ v, readRegister 3 s = .ok v ∧ v.toNat = (progress s).toNat) ∧
    (∃ v, readRegister 4 s = .ok v ∧ v.toNat = s.resp.toNat) ∧
    (∃ v, readRegister 5 s = .ok v ∧ v.toNat = 1024) ∧
    (∀ n, 6 ≤ n → readRegister n s = .error (.noSuchRegister n))

/-- PG is floor(BR * 100 / 1024) at every moment, and reads 100 only where BR = 1024 (R28). -/
def Obligations.ProgressReads : Prop :=
  ∀ s : State, s.br.toNat ≤ 1024 →
    (progress s).toNat = s.br.toNat * 100 / 1024 ∧ ((progress s).toNat = 100 ↔ s.br.toNat = 1024)

/-- Host buffer reads: any mapped byte while OUTV = 1, refused otherwise; a step that stays in Done leaves every byte
the host can read as it was (R52, R54). -/
def Obligations.BufferReads : Prop :=
  (∀ (s : State) (a : BitVec 20), s.st = .done → mapped a.toNat = true → readBuffer a s = .ok (byteAt s a.toNat)) ∧
  (∀ (s : State) (a : BitVec 20), s.st = .done →
    (0x00800 ≤ a.toNat ∧ a.toNat ≤ 0x07FFF) ∨ (0x10000 ≤ a.toNat ∧ a.toNat ≤ 0x7FFFF) →
    readBuffer a s = .error (.unmappedAddress a.toNat)) ∧
  (∀ (s : State) (a : BitVec 20), s.st ≠ .done → readBuffer a s = .error .bufferNotReadable) ∧
  (∀ (s t : State) (a : BitVec 20), CounterInv s → BufferInv s → s.st = .done → step s = .next t → t.st = .done →
    readBuffer a t = readBuffer a s)

/-- The model's choice (log 6): where R34 says the buffers become unspecified, no address is listed any more and the
free contents are those of a new epoch: at a START and a DISCONNECT with a connection, and at a timeout. -/
def Obligations.UnspecifiedBuffers : Prop :=
  ∀ s : State,
    (s.conn = true → ∃ t, exec .start s = .next t ∧ t.epoch = s.epoch + 1 ∧
      ∀ a, byteAt t a = Config.unspecifiedByte (s.epoch + 1) a) ∧
    (s.conn = true → ∃ t, exec .disconnect s = .next t ∧ t.epoch = s.epoch + 1 ∧
      ∀ a, byteAt t a = Config.unspecifiedByte (s.epoch + 1) a) ∧
    (s.st = .capturing → readBytes 256 s = [] → s.rc.toNat = 99 →
      ∃ t, exec .poll s = .next t ∧ t.epoch = s.epoch + 1 ∧
        ∀ a, byteAt t a = Config.unspecifiedByte (s.epoch + 1) a)

/-! ### The link -/

/-- No byte the link received before a purge appears in a later read: after a CONNECT or a START that succeeds, a START
that abandons a capture included, what the next read can return is what arrives from then on (R65, R103, R112). -/
def Obligations.PurgeLeavesNothingUnread : Prop :=
  (∀ (p : Nat) (s : State), s.conn = false → openAnswer s.env = .ok →
    ∃ t, exec (.connect p) s = .next t ∧ t.link.rx = [] ∧ unreadBytes t = (readAnswer t.env).arrived) ∧
  (∀ s : State, s.conn = true → (s.st = .capturing → s.params.startWhileCapturing = .restart) →
    writeAnswer s.env = .ok →
      ∃ t, exec .start s = .next t ∧ t.link.rx = [] ∧ unreadBytes t = (readAnswer t.env).arrived)

/-- A read returns at most 256 bytes, the oldest unread ones in arrival order, and removes them (R105); and every
sequence of at most 256 bytes that agrees with the bytes the link already holds, being a first part of them or a
continuation, is the result of some answer of the environment (R106); the link holds none after a purge. -/
def Obligations.ReadsAreOldestAndFree : Prop :=
  (∀ s : State, (readBytes 256 s).length ≤ 256 ∧
    readBytes 256 s ++ (linkRead 256 s).link.rx = s.link.rx ++ (readAnswer s.env).arrived) ∧
  (∀ (s : State) (d : List Byte), d.length ≤ 256 → d <+: s.link.rx ∨ s.link.rx <+: d →
    ∃ a : ReadAnswer, readBytes 256 { s with env := { s.env with reads := a :: s.env.reads } } = d)

/-- The reference environment's read removes and returns the first min(|RXQ|, 256) bytes of the queue (R107). -/
def Obligations.ReferenceReads : Prop :=
  ∀ (s : State) (arrived : List Byte) (rest : List ReadAnswer), s.env.reads = referenceRead arrived :: rest →
    readBytes 256 s = (s.link.rx ++ arrived).take 256 ∧
    (readBytes 256 s).length = min (s.link.rx ++ arrived).length 256 ∧
    (linkRead 256 s).link.rx = (s.link.rx ++ arrived).drop 256

/-! ### The host software around the block (00_scope.md R8: no part of the hardware; log 14) -/

/-- On EV_DONE the host appends one image: the next id, the bytes of RAW, THUMB and PREVIEW, and the new image selected;
on any other answer it appends nothing; and a tick of the host's loop is one POLL followed by that, so only the POLL that
completes a capture adds an image (R185, R192). -/
def Obligations.HandoffAppendsImage : Prop :=
  (∀ (s : State) (store : ImageStore), s.st = .done → imageHandoff s = true →
    ∃ image, hostHandoff s store =
        .ok { images := store.images ++ [image], nextId := store.nextId + 1, selected := some store.images.length } ∧
      image.id = store.nextId ∧ image.raw = memRead s 0x00000 1024 ∧
      image.thumbnail = memRead s 0x08000 32768 ∧ image.preview = memRead s 0x80000 524288) ∧
  (∀ (s : State) (store : ImageStore), imageHandoff s = false → hostHandoff s store = .ok store) ∧
  ∀ h : HostLoop, ∃ t, exec .poll { h.block with engine := none } = .next t ∧
    (imageHandoff t = true → h.block.st = .capturing ∧ t.st = .done ∧
      ∃ store, hostHandoff t h.store = .ok store ∧ store.images.length = h.store.images.length + 1 ∧
        hostTick h = .next { block := t, store := store }) ∧
    (imageHandoff t = false → hostTick h = .next { block := t, store := h.store })

/-- Every operation of the ImageStore keeps its ids rising and never reused and its selection in range (R190, R191,
R194). -/
def Obligations.ImageStoreKeepsIds : Prop :=
  StoreInv emptyStore ∧
  ∀ store : ImageStore, StoreInv store →
    (∀ raw thumbnail preview, StoreInv (appendImage raw thumbnail preview store)) ∧
    (∀ index text store', renameImage index text store = .ok store' → StoreInv store') ∧
    (∀ index store', removeImage index store = .ok store' → StoreInv store' ∧ store'.nextId = store.nextId) ∧
    (∀ index store', selectImage index store = .ok store' → StoreInv store') ∧
    StoreInv (clearImages store) ∧ (clearImages store).nextId = store.nextId

/-! ### The reference environment -/

/-- In the model's form of the reference environment of R107 (log 18) a capture completes: a START followed by POLLs,
the reply arriving in pieces of at least one byte, ends in Done with the device's frame in RAW within 1024 POLLs; where
the whole reply arrives at once it takes the four POLLs of the document's scenario (95 S8). That a piece arrives before
every step, and all the rest where no size is left, are DESIGN CHOICES of log 18, and the completion and its bound rest
on them: R107 lets pieces come at any later time, so that a capture may also time out. -/
def Obligations.ReferenceCaptureCompletes : Prop :=
  ∀ (d : ReferenceDevice) (s : State), d.wf → (∀ n ∈ d.pieces, 1 ≤ n) →
    s.conn = true → s.link.handle.isSome = true →
    (s.st = .capturing → s.params.startWhileCapturing = .restart) → s.engine = none →
    s.host = .command (encode .start) :: List.replicate 1024 (.command (encode .poll)) →
      ∃ k ≤ 1025, ∃ d' t, referenceRun k d s = .next (d', t) ∧ t.st = .done ∧ imageHandoff t = true ∧
        (∀ i < 1024, t.mem.lookup (0x00000 + i) = d.frame[i]?) ∧ (d.pieces = [] → k = 5)
end

