-- ==== Sys2Proof/Laws/Collaborators.lean ====
section
/-! SUPPORT. What the host software does: its listing of ports is one that R186 and R189 allow, and what one command of
the host's loop can do. -/

namespace Sys2Proof.Machine

/-! ### PortDirectory -/

theorem insertPort_perm (p : PortId) (l : List PortId) : (insertPort p l).Perm (p :: l) := by
  induction l with
  | nil => exact List.Perm.refl _
  | cons q qs ih =>
    unfold insertPort
    split
    · exact List.Perm.refl _
    · exact (ih.cons q).trans (List.Perm.swap p q qs)

theorem insertPort_rising (p : PortId) {l : List PortId}
    (h : l.Pairwise fun a b => (portNumber a).getD 0 ≤ (portNumber b).getD 0) :
    (insertPort p l).Pairwise fun a b => (portNumber a).getD 0 ≤ (portNumber b).getD 0 := by
  induction l with
  | nil => simp [insertPort]
  | cons q qs ih =>
    obtain ⟨hq, hqs⟩ := List.pairwise_cons.1 h
    unfold insertPort
    split
    · rename_i hpq
      refine List.pairwise_cons.2 ⟨fun b hb => ?_, h⟩
      rcases List.mem_cons.1 hb with rfl | hb
      · exact hpq
      · exact Nat.le_trans hpq (hq b hb)
    · rename_i hpq
      refine List.pairwise_cons.2 ⟨fun b hb => ?_, ih hqs⟩
      rcases List.mem_cons.1 ((insertPort_perm p qs).mem_iff.1 hb) with rfl | hb
      · omega
      · exact hq b hb

theorem sortPorts_perm (l : List PortId) : (l.foldr insertPort []).Perm l := by
  induction l with
  | nil => exact List.Perm.refl _
  | cons p l ih => exact (insertPort_perm p _).trans (ih.cons p)

theorem sortPorts_rising (l : List PortId) :
    (l.foldr insertPort []).Pairwise fun a b => (portNumber a).getD 0 ≤ (portNumber b).getD 0 := by
  induction l with
  | nil => exact List.Pairwise.nil
  | cons p l ih => exact insertPort_rising p ih

theorem isSome_of_mem_numbered {pre : String} {registry : Option (List PortId)} {p : PortId}
    (h : p ∈ (numbered pre registry).foldr insertPort []) : (portNumber p).isSome = true :=
  (List.mem_filter.1 ((sortPorts_perm _).mem_iff.1 h)).2

theorem isNone_of_mem_unnumbered {pre : String} {registry : Option (List PortId)} {p : PortId}
    {keep : PortId → Bool} (h : p ∈ (unnumbered pre registry).filter keep) : (portNumber p).isNone = true :=
  (List.mem_filter.1 (List.mem_filter.1 h).1).2

/-- The numbered entries of a listing are the sorted numbered entries of the registry. -/
theorem listPorts_filter_isSome (pre : String) (registry : Option (List PortId)) :
    ((listPorts pre registry).filter fun p => (portNumber p).isSome) =
      (numbered pre registry).foldr insertPort [] := by
  unfold listPorts
  rw [List.filter_append, List.filter_eq_self.2 fun p hp => isSome_of_mem_numbered hp,
    List.filter_eq_nil_iff.2 fun p hp => ?_, List.append_nil]
  have := isNone_of_mem_unnumbered hp
  cases hn : portNumber p <;> simp_all

theorem listPorts_filter_isNone (pre : String) (registry : Option (List PortId)) :
    ((listPorts pre registry).filter fun p => (portNumber p).isNone) =
      (unnumbered pre registry).filter fun p => Config.listsUnnumbered p.suffix := by
  unfold listPorts
  rw [List.filter_append, List.filter_eq_self.2 fun p hp => isNone_of_mem_unnumbered hp,
    List.filter_eq_nil_iff.2 fun p hp => ?_, List.nil_append]
  have := isSome_of_mem_numbered hp
  cases hn : portNumber p <;> simp_all

/-- `listPorts` gives a listing as R186 describes it. -/
theorem listPorts_isPortListing (pre : String) (registry : Option (List PortId)) :
    isPortListing pre registry (listPorts pre registry) := by
  refine ⟨?_, ?_, ?_⟩
  · rw [listPorts_filter_isSome]; exact sortPorts_perm _
  · rw [listPorts_filter_isSome]; exact sortPorts_rising _
  · rw [listPorts_filter_isNone]; exact List.filter_sublist.subperm

/-- Unsupported enumeration, and a registry with no recognised entry, give the empty sequence (R187). -/
theorem listPorts_of_recognised_nil {pre : String} {registry : Option (List PortId)}
    (h : recognised pre registry = []) : listPorts pre registry = [] := by
  simp [listPorts, numbered, unnumbered, h]

theorem recognised_unsupported (pre : String) : recognised pre none = [] := rfl

/-! ### The host's loop -/

/-- Where the answer is not EV_DONE the store stays (R192). -/
theorem hostHandoff_of_not_handoff {s : State} {store : ImageStore} (h : imageHandoff s = false) :
    hostHandoff s store = .ok store := by
  simp [hostHandoff, h]

/-- What one command of the host's loop can give: the block's step, and its duty done on the answer. -/
theorem hostIssue_next {w : Word} {h h' : HostLoop} (hn : hostIssue w h = .next h') :
    step (presentHostWord w h.block) = .next h'.block ∧ hostHandoff h'.block h.store = .ok h'.store := by
  unfold hostIssue at hn
  split at hn
  · cases hn
  · cases hn
  · rename_i t ht
    split at hn
    · rename_i store hs
      cases hn
      exact ⟨ht, hs⟩
    · cases hn

end Sys2Proof.Machine
end

