-- ==== Sys2Proof/Laws/State.lean ====
section
/-! SUPPORT. One lemma per field per state update, each true by rfl. -/

namespace Sys2Proof.Machine

/-! ### memWrite -/

@[simp] theorem memWrite_st (a : Nat) (bs : List Byte) (s : State) : (memWrite a bs s).st = s.st := rfl
@[simp] theorem memWrite_conn (a : Nat) (bs : List Byte) (s : State) : (memWrite a bs s).conn = s.conn := rfl
@[simp] theorem memWrite_br (a : Nat) (bs : List Byte) (s : State) : (memWrite a bs s).br = s.br := rfl
@[simp] theorem memWrite_rc (a : Nat) (bs : List Byte) (s : State) : (memWrite a bs s).rc = s.rc := rfl
@[simp] theorem memWrite_resp (a : Nat) (bs : List Byte) (s : State) : (memWrite a bs s).resp = s.resp := rfl
@[simp] theorem memWrite_mem (a : Nat) (bs : List Byte) (s : State) : (memWrite a bs s).mem = s.mem.write a bs := rfl
@[simp] theorem memWrite_epoch (a : Nat) (bs : List Byte) (s : State) : (memWrite a bs s).epoch = s.epoch := rfl
@[simp] theorem memWrite_link (a : Nat) (bs : List Byte) (s : State) : (memWrite a bs s).link = s.link := rfl
@[simp] theorem memWrite_env (a : Nat) (bs : List Byte) (s : State) : (memWrite a bs s).env = s.env := rfl
@[simp] theorem memWrite_host (a : Nat) (bs : List Byte) (s : State) : (memWrite a bs s).host = s.host := rfl
@[simp] theorem memWrite_engine (a : Nat) (bs : List Byte) (s : State) : (memWrite a bs s).engine = s.engine := rfl
@[simp] theorem memWrite_params (a : Nat) (bs : List Byte) (s : State) : (memWrite a bs s).params = s.params := rfl

/-! ### memFill -/

@[simp] theorem memFill_st (a n : Nat) (f : Nat → Byte) (s : State) : (memFill a n f s).st = s.st := rfl
@[simp] theorem memFill_conn (a n : Nat) (f : Nat → Byte) (s : State) : (memFill a n f s).conn = s.conn := rfl
@[simp] theorem memFill_br (a n : Nat) (f : Nat → Byte) (s : State) : (memFill a n f s).br = s.br := rfl
@[simp] theorem memFill_rc (a n : Nat) (f : Nat → Byte) (s : State) : (memFill a n f s).rc = s.rc := rfl
@[simp] theorem memFill_resp (a n : Nat) (f : Nat → Byte) (s : State) : (memFill a n f s).resp = s.resp := rfl
@[simp] theorem memFill_mem (a n : Nat) (f : Nat → Byte) (s : State) : (memFill a n f s).mem = s.mem.write a ((List.range n).map f) := rfl
@[simp] theorem memFill_epoch (a n : Nat) (f : Nat → Byte) (s : State) : (memFill a n f s).epoch = s.epoch := rfl
@[simp] theorem memFill_link (a n : Nat) (f : Nat → Byte) (s : State) : (memFill a n f s).link = s.link := rfl
@[simp] theorem memFill_env (a n : Nat) (f : Nat → Byte) (s : State) : (memFill a n f s).env = s.env := rfl
@[simp] theorem memFill_host (a n : Nat) (f : Nat → Byte) (s : State) : (memFill a n f s).host = s.host := rfl
@[simp] theorem memFill_engine (a n : Nat) (f : Nat → Byte) (s : State) : (memFill a n f s).engine = s.engine := rfl
@[simp] theorem memFill_params (a n : Nat) (f : Nat → Byte) (s : State) : (memFill a n f s).params = s.params := rfl

/-! ### forgetBuffers -/

@[simp] theorem forgetBuffers_st (s : State) : (forgetBuffers s).st = s.st := rfl
@[simp] theorem forgetBuffers_conn (s : State) : (forgetBuffers s).conn = s.conn := rfl
@[simp] theorem forgetBuffers_br (s : State) : (forgetBuffers s).br = s.br := rfl
@[simp] theorem forgetBuffers_rc (s : State) : (forgetBuffers s).rc = s.rc := rfl
@[simp] theorem forgetBuffers_resp (s : State) : (forgetBuffers s).resp = s.resp := rfl
@[simp] theorem forgetBuffers_mem (s : State) : (forgetBuffers s).mem = [] := rfl
@[simp] theorem forgetBuffers_epoch (s : State) : (forgetBuffers s).epoch = s.epoch + 1 := rfl
@[simp] theorem forgetBuffers_link (s : State) : (forgetBuffers s).link = s.link := rfl
@[simp] theorem forgetBuffers_env (s : State) : (forgetBuffers s).env = s.env := rfl
@[simp] theorem forgetBuffers_host (s : State) : (forgetBuffers s).host = s.host := rfl
@[simp] theorem forgetBuffers_engine (s : State) : (forgetBuffers s).engine = s.engine := rfl
@[simp] theorem forgetBuffers_params (s : State) : (forgetBuffers s).params = s.params := rfl

/-! ### respond -/

@[simp] theorem respond_st (r : Response) (s : State) : (respond r s).st = s.st := rfl
@[simp] theorem respond_conn (r : Response) (s : State) : (respond r s).conn = s.conn := rfl
@[simp] theorem respond_br (r : Response) (s : State) : (respond r s).br = s.br := rfl
@[simp] theorem respond_rc (r : Response) (s : State) : (respond r s).rc = s.rc := rfl
@[simp] theorem respond_resp (r : Response) (s : State) : (respond r s).resp = responseCode r := rfl
@[simp] theorem respond_mem (r : Response) (s : State) : (respond r s).mem = s.mem := rfl
@[simp] theorem respond_epoch (r : Response) (s : State) : (respond r s).epoch = s.epoch := rfl
@[simp] theorem respond_link (r : Response) (s : State) : (respond r s).link = s.link := rfl
@[simp] theorem respond_env (r : Response) (s : State) : (respond r s).env = s.env := rfl
@[simp] theorem respond_host (r : Response) (s : State) : (respond r s).host = s.host := rfl
@[simp] theorem respond_engine (r : Response) (s : State) : (respond r s).engine = s.engine := rfl
@[simp] theorem respond_params (r : Response) (s : State) : (respond r s).params = s.params := rfl

/-! ### raise -/

@[simp] theorem raise_st (r : Response) (s : State) : (raise r s).st = s.st := rfl
@[simp] theorem raise_conn (r : Response) (s : State) : (raise r s).conn = s.conn := rfl
@[simp] theorem raise_br (r : Response) (s : State) : (raise r s).br = s.br := rfl
@[simp] theorem raise_rc (r : Response) (s : State) : (raise r s).rc = s.rc := rfl
@[simp] theorem raise_resp (r : Response) (s : State) : (raise r s).resp = responseCode r := rfl
@[simp] theorem raise_mem (r : Response) (s : State) : (raise r s).mem = s.mem := rfl
@[simp] theorem raise_epoch (r : Response) (s : State) : (raise r s).epoch = s.epoch := rfl
@[simp] theorem raise_link (r : Response) (s : State) : (raise r s).link = s.link := rfl
@[simp] theorem raise_env (r : Response) (s : State) : (raise r s).env = s.env := rfl
@[simp] theorem raise_host (r : Response) (s : State) : (raise r s).host = s.host := rfl
@[simp] theorem raise_engine (r : Response) (s : State) : (raise r s).engine = s.engine := rfl
@[simp] theorem raise_params (r : Response) (s : State) : (raise r s).params = s.params := rfl

/-! ### forceIdle -/

@[simp] theorem forceIdle_st (s : State) : (forceIdle s).st = .idle := rfl
@[simp] theorem forceIdle_conn (s : State) : (forceIdle s).conn = s.conn := rfl
@[simp] theorem forceIdle_br (s : State) : (forceIdle s).br = 0 := rfl
@[simp] theorem forceIdle_rc (s : State) : (forceIdle s).rc = 0 := rfl
@[simp] theorem forceIdle_resp (s : State) : (forceIdle s).resp = s.resp := rfl
@[simp] theorem forceIdle_mem (s : State) : (forceIdle s).mem = [] := rfl
@[simp] theorem forceIdle_epoch (s : State) : (forceIdle s).epoch = s.epoch + 1 := rfl
@[simp] theorem forceIdle_link (s : State) : (forceIdle s).link = s.link := rfl
@[simp] theorem forceIdle_env (s : State) : (forceIdle s).env = s.env := rfl
@[simp] theorem forceIdle_host (s : State) : (forceIdle s).host = s.host := rfl
@[simp] theorem forceIdle_engine (s : State) : (forceIdle s).engine = s.engine := rfl
@[simp] theorem forceIdle_params (s : State) : (forceIdle s).params = s.params := rfl

/-! ### illegalCommand -/

@[simp] theorem illegalCommand_st (s : State) : (illegalCommand s).st = s.st := rfl
@[simp] theorem illegalCommand_conn (s : State) : (illegalCommand s).conn = s.conn := rfl
@[simp] theorem illegalCommand_br (s : State) : (illegalCommand s).br = s.br := rfl
@[simp] theorem illegalCommand_rc (s : State) : (illegalCommand s).rc = s.rc := rfl
@[simp] theorem illegalCommand_resp (s : State) : (illegalCommand s).resp = 0xF := rfl
@[simp] theorem illegalCommand_mem (s : State) : (illegalCommand s).mem = s.mem := rfl
@[simp] theorem illegalCommand_epoch (s : State) : (illegalCommand s).epoch = s.epoch := rfl
@[simp] theorem illegalCommand_link (s : State) : (illegalCommand s).link = s.link := rfl
@[simp] theorem illegalCommand_env (s : State) : (illegalCommand s).env = s.env := rfl
@[simp] theorem illegalCommand_host (s : State) : (illegalCommand s).host = s.host := rfl
@[simp] theorem illegalCommand_engine (s : State) : (illegalCommand s).engine = s.engine := rfl
@[simp] theorem illegalCommand_params (s : State) : (illegalCommand s).params = s.params := rfl

/-! ### linkOpen -/

@[simp] theorem linkOpen_st (p : Nat) (s : State) : (linkOpen p s).st = s.st := rfl
@[simp] theorem linkOpen_conn (p : Nat) (s : State) : (linkOpen p s).conn = s.conn := rfl
@[simp] theorem linkOpen_br (p : Nat) (s : State) : (linkOpen p s).br = s.br := rfl
@[simp] theorem linkOpen_rc (p : Nat) (s : State) : (linkOpen p s).rc = s.rc := rfl
@[simp] theorem linkOpen_resp (p : Nat) (s : State) : (linkOpen p s).resp = s.resp := rfl
@[simp] theorem linkOpen_mem (p : Nat) (s : State) : (linkOpen p s).mem = s.mem := rfl
@[simp] theorem linkOpen_epoch (p : Nat) (s : State) : (linkOpen p s).epoch = s.epoch := rfl
@[simp] theorem linkOpen_link_handle (p : Nat) (s : State) :
    (linkOpen p s).link.handle = if openAnswer s.env = .ok then some { port := p, line := Config.lineConfig } else none := rfl
@[simp] theorem linkOpen_link_rx (p : Nat) (s : State) :
    (linkOpen p s).link.rx = s.link.rx := rfl
@[simp] theorem linkOpen_link_tx (p : Nat) (s : State) :
    (linkOpen p s).link.tx = s.link.tx := rfl
@[simp] theorem linkOpen_link_log (p : Nat) (s : State) :
    (linkOpen p s).link.log = s.link.log ++ [.open_ p (openAnswer s.env)] := rfl
@[simp] theorem linkOpen_env (p : Nat) (s : State) : (linkOpen p s).env = openAnswered s.env := rfl
@[simp] theorem linkOpen_host (p : Nat) (s : State) : (linkOpen p s).host = s.host := rfl
@[simp] theorem linkOpen_engine (p : Nat) (s : State) : (linkOpen p s).engine = s.engine := rfl
@[simp] theorem linkOpen_params (p : Nat) (s : State) : (linkOpen p s).params = s.params := rfl

/-! ### linkClose -/

@[simp] theorem linkClose_st (s : State) : (linkClose s).st = s.st := rfl
@[simp] theorem linkClose_conn (s : State) : (linkClose s).conn = s.conn := rfl
@[simp] theorem linkClose_br (s : State) : (linkClose s).br = s.br := rfl
@[simp] theorem linkClose_rc (s : State) : (linkClose s).rc = s.rc := rfl
@[simp] theorem linkClose_resp (s : State) : (linkClose s).resp = s.resp := rfl
@[simp] theorem linkClose_mem (s : State) : (linkClose s).mem = s.mem := rfl
@[simp] theorem linkClose_epoch (s : State) : (linkClose s).epoch = s.epoch := rfl
@[simp] theorem linkClose_link_handle (s : State) :
    (linkClose s).link.handle = none := rfl
@[simp] theorem linkClose_link_rx (s : State) :
    (linkClose s).link.rx = (closeAnswer s.env).rx := rfl
@[simp] theorem linkClose_link_tx (s : State) :
    (linkClose s).link.tx = (closeAnswer s.env).tx := rfl
@[simp] theorem linkClose_link_log (s : State) :
    (linkClose s).link.log = s.link.log ++ [.close] := rfl
@[simp] theorem linkClose_env (s : State) : (linkClose s).env = closeAnswered s.env := rfl
@[simp] theorem linkClose_host (s : State) : (linkClose s).host = s.host := rfl
@[simp] theorem linkClose_engine (s : State) : (linkClose s).engine = s.engine := rfl
@[simp] theorem linkClose_params (s : State) : (linkClose s).params = s.params := rfl

/-! ### linkPurge -/

@[simp] theorem linkPurge_st (s : State) : (linkPurge s).st = s.st := rfl
@[simp] theorem linkPurge_conn (s : State) : (linkPurge s).conn = s.conn := rfl
@[simp] theorem linkPurge_br (s : State) : (linkPurge s).br = s.br := rfl
@[simp] theorem linkPurge_rc (s : State) : (linkPurge s).rc = s.rc := rfl
@[simp] theorem linkPurge_resp (s : State) : (linkPurge s).resp = s.resp := rfl
@[simp] theorem linkPurge_mem (s : State) : (linkPurge s).mem = s.mem := rfl
@[simp] theorem linkPurge_epoch (s : State) : (linkPurge s).epoch = s.epoch := rfl
@[simp] theorem linkPurge_link_handle (s : State) :
    (linkPurge s).link.handle = s.link.handle := rfl
@[simp] theorem linkPurge_link_rx (s : State) :
    (linkPurge s).link.rx = [] := rfl
@[simp] theorem linkPurge_link_tx (s : State) :
    (linkPurge s).link.tx = [] := rfl
@[simp] theorem linkPurge_link_log (s : State) :
    (linkPurge s).link.log = s.link.log ++ [.purge] := rfl
@[simp] theorem linkPurge_env (s : State) : (linkPurge s).env = s.env := rfl
@[simp] theorem linkPurge_host (s : State) : (linkPurge s).host = s.host := rfl
@[simp] theorem linkPurge_engine (s : State) : (linkPurge s).engine = s.engine := rfl
@[simp] theorem linkPurge_params (s : State) : (linkPurge s).params = s.params := rfl

/-! ### linkWrite -/

@[simp] theorem linkWrite_st (bytes : List Byte) (s : State) : (linkWrite bytes s).st = s.st := rfl
@[simp] theorem linkWrite_conn (bytes : List Byte) (s : State) : (linkWrite bytes s).conn = s.conn := rfl
@[simp] theorem linkWrite_br (bytes : List Byte) (s : State) : (linkWrite bytes s).br = s.br := rfl
@[simp] theorem linkWrite_rc (bytes : List Byte) (s : State) : (linkWrite bytes s).rc = s.rc := rfl
@[simp] theorem linkWrite_resp (bytes : List Byte) (s : State) : (linkWrite bytes s).resp = s.resp := rfl
@[simp] theorem linkWrite_mem (bytes : List Byte) (s : State) : (linkWrite bytes s).mem = s.mem := rfl
@[simp] theorem linkWrite_epoch (bytes : List Byte) (s : State) : (linkWrite bytes s).epoch = s.epoch := rfl
@[simp] theorem linkWrite_link_handle (bytes : List Byte) (s : State) :
    (linkWrite bytes s).link.handle = s.link.handle := rfl
@[simp] theorem linkWrite_link_rx (bytes : List Byte) (s : State) :
    (linkWrite bytes s).link.rx = s.link.rx := rfl
@[simp] theorem linkWrite_link_tx (bytes : List Byte) (s : State) :
    (linkWrite bytes s).link.tx = unsentAfter (s.link.tx ++ bytes) (writeAnswer s.env) := rfl
@[simp] theorem linkWrite_link_log (bytes : List Byte) (s : State) :
    (linkWrite bytes s).link.log = s.link.log ++ [.write bytes (writeAnswer s.env)] := rfl
@[simp] theorem linkWrite_env (bytes : List Byte) (s : State) : (linkWrite bytes s).env = writeAnswered s.env := rfl
@[simp] theorem linkWrite_host (bytes : List Byte) (s : State) : (linkWrite bytes s).host = s.host := rfl
@[simp] theorem linkWrite_engine (bytes : List Byte) (s : State) : (linkWrite bytes s).engine = s.engine := rfl
@[simp] theorem linkWrite_params (bytes : List Byte) (s : State) : (linkWrite bytes s).params = s.params := rfl

/-! ### linkRead -/

@[simp] theorem linkRead_st (max : Nat) (s : State) : (linkRead max s).st = s.st := rfl
@[simp] theorem linkRead_conn (max : Nat) (s : State) : (linkRead max s).conn = s.conn := rfl
@[simp] theorem linkRead_br (max : Nat) (s : State) : (linkRead max s).br = s.br := rfl
@[simp] theorem linkRead_rc (max : Nat) (s : State) : (linkRead max s).rc = s.rc := rfl
@[simp] theorem linkRead_resp (max : Nat) (s : State) : (linkRead max s).resp = s.resp := rfl
@[simp] theorem linkRead_mem (max : Nat) (s : State) : (linkRead max s).mem = s.mem := rfl
@[simp] theorem linkRead_epoch (max : Nat) (s : State) : (linkRead max s).epoch = s.epoch := rfl
@[simp] theorem linkRead_link_handle (max : Nat) (s : State) :
    (linkRead max s).link.handle = s.link.handle := rfl
@[simp] theorem linkRead_link_rx (max : Nat) (s : State) :
    (linkRead max s).link.rx = (unreadBytes s).drop (min (readAnswer s.env).count max) := rfl
@[simp] theorem linkRead_link_tx (max : Nat) (s : State) :
    (linkRead max s).link.tx = s.link.tx := rfl
@[simp] theorem linkRead_link_log (max : Nat) (s : State) :
    (linkRead max s).link.log = s.link.log ++ [.read max (readBytes max s)] := rfl
@[simp] theorem linkRead_env (max : Nat) (s : State) : (linkRead max s).env = readAnswered s.env := rfl
@[simp] theorem linkRead_host (max : Nat) (s : State) : (linkRead max s).host = s.host := rfl
@[simp] theorem linkRead_engine (max : Nat) (s : State) : (linkRead max s).engine = s.engine := rfl
@[simp] theorem linkRead_params (max : Nat) (s : State) : (linkRead max s).params = s.params := rfl

/-! ### resetBlock -/

@[simp] theorem resetBlock_st (s : State) : (resetBlock s).st = .idle := rfl
@[simp] theorem resetBlock_conn (s : State) : (resetBlock s).conn = false := rfl
@[simp] theorem resetBlock_br (s : State) : (resetBlock s).br = 0 := rfl
@[simp] theorem resetBlock_rc (s : State) : (resetBlock s).rc = 0 := rfl
@[simp] theorem resetBlock_resp (s : State) : (resetBlock s).resp = 0 := rfl
@[simp] theorem resetBlock_mem (s : State) : (resetBlock s).mem = [] := rfl
@[simp] theorem resetBlock_epoch (s : State) : (resetBlock s).epoch = s.epoch + 1 := rfl
@[simp] theorem resetBlock_link_handle (s : State) :
    (resetBlock s).link.handle = none := rfl
@[simp] theorem resetBlock_link_rx (s : State) :
    (resetBlock s).link.rx = (closeAnswer s.env).rx := rfl
@[simp] theorem resetBlock_link_tx (s : State) :
    (resetBlock s).link.tx = (closeAnswer s.env).tx := rfl
@[simp] theorem resetBlock_link_log (s : State) :
    (resetBlock s).link.log = s.link.log := rfl
@[simp] theorem resetBlock_env (s : State) : (resetBlock s).env = closeAnswered s.env := rfl
@[simp] theorem resetBlock_host (s : State) : (resetBlock s).host = s.host := rfl
@[simp] theorem resetBlock_engine (s : State) : (resetBlock s).engine = none := rfl
@[simp] theorem resetBlock_params (s : State) : (resetBlock s).params = s.params := rfl

/-! ### repack -/

@[simp] theorem repack_st (s : State) : (repack s).st = s.st := rfl
@[simp] theorem repack_conn (s : State) : (repack s).conn = s.conn := rfl
@[simp] theorem repack_br (s : State) : (repack s).br = s.br := rfl
@[simp] theorem repack_rc (s : State) : (repack s).rc = s.rc := rfl
@[simp] theorem repack_resp (s : State) : (repack s).resp = s.resp := rfl
@[simp] theorem repack_mem (s : State) : (repack s).mem = s.mem.write Config.canonBase ((List.range Config.frameBytes).map (repackByte (bufferBytes Config.rawBase s))) := rfl
@[simp] theorem repack_epoch (s : State) : (repack s).epoch = s.epoch := rfl
@[simp] theorem repack_link (s : State) : (repack s).link = s.link := rfl
@[simp] theorem repack_env (s : State) : (repack s).env = s.env := rfl
@[simp] theorem repack_host (s : State) : (repack s).host = s.host := rfl
@[simp] theorem repack_engine (s : State) : (repack s).engine = s.engine := rfl
@[simp] theorem repack_params (s : State) : (repack s).params = s.params := rfl

/-! ### colorize -/

@[simp] theorem colorize_st (s : State) : (colorize s).st = s.st := rfl
@[simp] theorem colorize_conn (s : State) : (colorize s).conn = s.conn := rfl
@[simp] theorem colorize_br (s : State) : (colorize s).br = s.br := rfl
@[simp] theorem colorize_rc (s : State) : (colorize s).rc = s.rc := rfl
@[simp] theorem colorize_resp (s : State) : (colorize s).resp = s.resp := rfl
@[simp] theorem colorize_mem (s : State) : (colorize s).mem = s.mem.write Config.thumbBase ((List.range Config.thumbBytes).map
      (colorizeByte s.params.thumbRowOrder (bufferBytes Config.canonBase s))) := rfl
@[simp] theorem colorize_epoch (s : State) : (colorize s).epoch = s.epoch := rfl
@[simp] theorem colorize_link (s : State) : (colorize s).link = s.link := rfl
@[simp] theorem colorize_env (s : State) : (colorize s).env = s.env := rfl
@[simp] theorem colorize_host (s : State) : (colorize s).host = s.host := rfl
@[simp] theorem colorize_engine (s : State) : (colorize s).engine = s.engine := rfl
@[simp] theorem colorize_params (s : State) : (colorize s).params = s.params := rfl

/-! ### upscale -/

@[simp] theorem upscale_st (s : State) : (upscale s).st = s.st := rfl
@[simp] theorem upscale_conn (s : State) : (upscale s).conn = s.conn := rfl
@[simp] theorem upscale_br (s : State) : (upscale s).br = s.br := rfl
@[simp] theorem upscale_rc (s : State) : (upscale s).rc = s.rc := rfl
@[simp] theorem upscale_resp (s : State) : (upscale s).resp = s.resp := rfl
@[simp] theorem upscale_mem (s : State) : (upscale s).mem = s.mem.write Config.previewBase ((List.range Config.previewBytes).map
      (upscaleByte (bufferBytes Config.thumbBase s))) := rfl
@[simp] theorem upscale_epoch (s : State) : (upscale s).epoch = s.epoch := rfl
@[simp] theorem upscale_link (s : State) : (upscale s).link = s.link := rfl
@[simp] theorem upscale_env (s : State) : (upscale s).env = s.env := rfl
@[simp] theorem upscale_host (s : State) : (upscale s).host = s.host := rfl
@[simp] theorem upscale_engine (s : State) : (upscale s).engine = s.engine := rfl
@[simp] theorem upscale_params (s : State) : (upscale s).params = s.params := rfl

/-! ### runDecode -/

@[simp] theorem runDecode_st (s : State) : (runDecode s).st = s.st := rfl
@[simp] theorem runDecode_conn (s : State) : (runDecode s).conn = s.conn := rfl
@[simp] theorem runDecode_br (s : State) : (runDecode s).br = s.br := rfl
@[simp] theorem runDecode_rc (s : State) : (runDecode s).rc = s.rc := rfl
@[simp] theorem runDecode_resp (s : State) : (runDecode s).resp = s.resp := rfl
@[simp] theorem runDecode_mem (s : State) : (runDecode s).mem = (upscale (colorize (repack s))).mem := rfl
@[simp] theorem runDecode_epoch (s : State) : (runDecode s).epoch = s.epoch := rfl
@[simp] theorem runDecode_link (s : State) : (runDecode s).link = s.link := rfl
@[simp] theorem runDecode_env (s : State) : (runDecode s).env = s.env := rfl
@[simp] theorem runDecode_host (s : State) : (runDecode s).host = s.host := rfl
@[simp] theorem runDecode_engine (s : State) : (runDecode s).engine = s.engine := rfl
@[simp] theorem runDecode_params (s : State) : (runDecode s).params = s.params := rfl

/-! ### acceptBytes -/

@[simp] theorem acceptBytes_st (d : List Byte) (s : State) : (acceptBytes d s).st = s.st := rfl
@[simp] theorem acceptBytes_conn (d : List Byte) (s : State) : (acceptBytes d s).conn = s.conn := rfl
@[simp] theorem acceptBytes_br (d : List Byte) (s : State) : (acceptBytes d s).br = BitVec.ofNat 11 (s.br.toNat + copyCount d s.br) := rfl
@[simp] theorem acceptBytes_rc (d : List Byte) (s : State) : (acceptBytes d s).rc = 0 := rfl
@[simp] theorem acceptBytes_resp (d : List Byte) (s : State) : (acceptBytes d s).resp = s.resp := rfl
@[simp] theorem acceptBytes_mem (d : List Byte) (s : State) : (acceptBytes d s).mem = s.mem.write (Config.rawBase + s.br.toNat) (d.take (copyCount d s.br)) := rfl
@[simp] theorem acceptBytes_epoch (d : List Byte) (s : State) : (acceptBytes d s).epoch = s.epoch := rfl
@[simp] theorem acceptBytes_link (d : List Byte) (s : State) : (acceptBytes d s).link = s.link := rfl
@[simp] theorem acceptBytes_env (d : List Byte) (s : State) : (acceptBytes d s).env = s.env := rfl
@[simp] theorem acceptBytes_host (d : List Byte) (s : State) : (acceptBytes d s).host = s.host := rfl
@[simp] theorem acceptBytes_engine (d : List Byte) (s : State) : (acceptBytes d s).engine = s.engine := rfl
@[simp] theorem acceptBytes_params (d : List Byte) (s : State) : (acceptBytes d s).params = s.params := rfl

/-! ### complete -/

@[simp] theorem complete_st (s : State) : (complete s).st = .done := rfl
@[simp] theorem complete_conn (s : State) : (complete s).conn = s.conn := rfl
@[simp] theorem complete_br (s : State) : (complete s).br = s.br := rfl
@[simp] theorem complete_rc (s : State) : (complete s).rc = s.rc := rfl
@[simp] theorem complete_resp (s : State) : (complete s).resp = responseCode .evDone := rfl
@[simp] theorem complete_mem (s : State) : (complete s).mem = (runDecode s).mem := rfl
@[simp] theorem complete_epoch (s : State) : (complete s).epoch = s.epoch := rfl
@[simp] theorem complete_link (s : State) : (complete s).link = s.link := rfl
@[simp] theorem complete_env (s : State) : (complete s).env = s.env := rfl
@[simp] theorem complete_host (s : State) : (complete s).host = s.host := rfl
@[simp] theorem complete_engine (s : State) : (complete s).engine = s.engine := rfl
@[simp] theorem complete_params (s : State) : (complete s).params = s.params := rfl

/-! ### timeOut -/

@[simp] theorem timeOut_st (s : State) : (timeOut s).st = .timedOut := rfl
@[simp] theorem timeOut_conn (s : State) : (timeOut s).conn = s.conn := rfl
@[simp] theorem timeOut_br (s : State) : (timeOut s).br = s.br := rfl
@[simp] theorem timeOut_rc (s : State) : (timeOut s).rc = s.rc := rfl
@[simp] theorem timeOut_resp (s : State) : (timeOut s).resp = responseCode .evTimeout := rfl
@[simp] theorem timeOut_mem (s : State) : (timeOut s).mem = [] := rfl
@[simp] theorem timeOut_epoch (s : State) : (timeOut s).epoch = s.epoch + 1 := rfl
@[simp] theorem timeOut_link (s : State) : (timeOut s).link = s.link := rfl
@[simp] theorem timeOut_env (s : State) : (timeOut s).env = s.env := rfl
@[simp] theorem timeOut_host (s : State) : (timeOut s).host = s.host := rfl
@[simp] theorem timeOut_engine (s : State) : (timeOut s).engine = s.engine := rfl
@[simp] theorem timeOut_params (s : State) : (timeOut s).params = s.params := rfl

/-! ### takeEngineWord -/

@[simp] theorem takeEngineWord_st (s : State) : (takeEngineWord s).st = s.st := rfl
@[simp] theorem takeEngineWord_conn (s : State) : (takeEngineWord s).conn = s.conn := rfl
@[simp] theorem takeEngineWord_br (s : State) : (takeEngineWord s).br = s.br := rfl
@[simp] theorem takeEngineWord_rc (s : State) : (takeEngineWord s).rc = s.rc := rfl
@[simp] theorem takeEngineWord_resp (s : State) : (takeEngineWord s).resp = s.resp := rfl
@[simp] theorem takeEngineWord_mem (s : State) : (takeEngineWord s).mem = s.mem := rfl
@[simp] theorem takeEngineWord_epoch (s : State) : (takeEngineWord s).epoch = s.epoch := rfl
@[simp] theorem takeEngineWord_link (s : State) : (takeEngineWord s).link = s.link := rfl
@[simp] theorem takeEngineWord_env (s : State) : (takeEngineWord s).env = s.env := rfl
@[simp] theorem takeEngineWord_host (s : State) : (takeEngineWord s).host = s.host := rfl
@[simp] theorem takeEngineWord_engine (s : State) : (takeEngineWord s).engine = none := rfl
@[simp] theorem takeEngineWord_params (s : State) : (takeEngineWord s).params = s.params := rfl

/-! ### takeHostEvent -/

@[simp] theorem takeHostEvent_st (rest : List HostEvent) (s : State) : (takeHostEvent rest s).st = s.st := rfl
@[simp] theorem takeHostEvent_conn (rest : List HostEvent) (s : State) : (takeHostEvent rest s).conn = s.conn := rfl
@[simp] theorem takeHostEvent_br (rest : List HostEvent) (s : State) : (takeHostEvent rest s).br = s.br := rfl
@[simp] theorem takeHostEvent_rc (rest : List HostEvent) (s : State) : (takeHostEvent rest s).rc = s.rc := rfl
@[simp] theorem takeHostEvent_resp (rest : List HostEvent) (s : State) : (takeHostEvent rest s).resp = s.resp := rfl
@[simp] theorem takeHostEvent_mem (rest : List HostEvent) (s : State) : (takeHostEvent rest s).mem = s.mem := rfl
@[simp] theorem takeHostEvent_epoch (rest : List HostEvent) (s : State) : (takeHostEvent rest s).epoch = s.epoch := rfl
@[simp] theorem takeHostEvent_link (rest : List HostEvent) (s : State) : (takeHostEvent rest s).link = s.link := rfl
@[simp] theorem takeHostEvent_env (rest : List HostEvent) (s : State) : (takeHostEvent rest s).env = s.env := rfl
@[simp] theorem takeHostEvent_host (rest : List HostEvent) (s : State) : (takeHostEvent rest s).host = rest := rfl
@[simp] theorem takeHostEvent_engine (rest : List HostEvent) (s : State) : (takeHostEvent rest s).engine = s.engine := rfl
@[simp] theorem takeHostEvent_params (rest : List HostEvent) (s : State) : (takeHostEvent rest s).params = s.params := rfl

/-! ### presentEngineWord -/

@[simp] theorem presentEngineWord_st (w : Word) (s : State) : (presentEngineWord w s).st = s.st := rfl
@[simp] theorem presentEngineWord_conn (w : Word) (s : State) : (presentEngineWord w s).conn = s.conn := rfl
@[simp] theorem presentEngineWord_br (w : Word) (s : State) : (presentEngineWord w s).br = s.br := rfl
@[simp] theorem presentEngineWord_rc (w : Word) (s : State) : (presentEngineWord w s).rc = s.rc := rfl
@[simp] theorem presentEngineWord_resp (w : Word) (s : State) : (presentEngineWord w s).resp = s.resp := rfl
@[simp] theorem presentEngineWord_mem (w : Word) (s : State) : (presentEngineWord w s).mem = s.mem := rfl
@[simp] theorem presentEngineWord_epoch (w : Word) (s : State) : (presentEngineWord w s).epoch = s.epoch := rfl
@[simp] theorem presentEngineWord_link (w : Word) (s : State) : (presentEngineWord w s).link = s.link := rfl
@[simp] theorem presentEngineWord_env (w : Word) (s : State) : (presentEngineWord w s).env = s.env := rfl
@[simp] theorem presentEngineWord_host (w : Word) (s : State) : (presentEngineWord w s).host = s.host := rfl
@[simp] theorem presentEngineWord_engine (w : Word) (s : State) : (presentEngineWord w s).engine = some w := rfl
@[simp] theorem presentEngineWord_params (w : Word) (s : State) : (presentEngineWord w s).params = s.params := rfl

/-! ### presentHostWord -/

@[simp] theorem presentHostWord_st (w : Word) (s : State) : (presentHostWord w s).st = s.st := rfl
@[simp] theorem presentHostWord_conn (w : Word) (s : State) : (presentHostWord w s).conn = s.conn := rfl
@[simp] theorem presentHostWord_br (w : Word) (s : State) : (presentHostWord w s).br = s.br := rfl
@[simp] theorem presentHostWord_rc (w : Word) (s : State) : (presentHostWord w s).rc = s.rc := rfl
@[simp] theorem presentHostWord_resp (w : Word) (s : State) : (presentHostWord w s).resp = s.resp := rfl
@[simp] theorem presentHostWord_mem (w : Word) (s : State) : (presentHostWord w s).mem = s.mem := rfl
@[simp] theorem presentHostWord_epoch (w : Word) (s : State) : (presentHostWord w s).epoch = s.epoch := rfl
@[simp] theorem presentHostWord_link (w : Word) (s : State) : (presentHostWord w s).link = s.link := rfl
@[simp] theorem presentHostWord_env (w : Word) (s : State) : (presentHostWord w s).env = s.env := rfl
@[simp] theorem presentHostWord_host (w : Word) (s : State) : (presentHostWord w s).host = .command w :: s.host := rfl
@[simp] theorem presentHostWord_engine (w : Word) (s : State) : (presentHostWord w s).engine = none := rfl
@[simp] theorem presentHostWord_params (w : Word) (s : State) : (presentHostWord w s).params = s.params := rfl

end Sys2Proof.Machine
end

