-- ==== Sys2Proof/Laws/Memory.lean ====
section
/-! SUPPORT. The buffer space: what reading after a write gives, that the canonical form is kept, and that memories of
that form are equal when they read alike. -/

namespace Sys2Proof.Machine

@[simp] theorem lookup_nil (a : Nat) : Memory.lookup [] a = none := rfl

theorem lookup_cons (c : Host.Cell) (m : Memory) (a : Nat) :
    Memory.lookup (c :: m) a = if c.1 = a then some c.2 else Memory.lookup m a := rfl

theorem lookup_append (m n : Memory) (a : Nat) :
    Memory.lookup (m ++ n) a = (Memory.lookup m a).or (Memory.lookup n a) := by
  induction m with
  | nil => simp
  | cons c m ih =>
    rw [List.cons_append, lookup_cons, lookup_cons, ih]
    split <;> simp

theorem lookup_filter (p : Nat → Bool) (m : Memory) (a : Nat) :
    Memory.lookup (m.filter fun c => p c.1) a = if p a then Memory.lookup m a else none := by
  induction m with
  | nil => simp
  | cons c m ih =>
    rw [List.filter_cons, lookup_cons]
    by_cases hc : p c.1 <;> by_cases ha : c.1 = a <;> simp_all [lookup_cons]

theorem lookup_cellsFrom (bs : List Byte) (b a : Nat) :
    Memory.lookup (cellsFrom b bs) a = if b ≤ a then bs[a - b]? else none := by
  induction bs generalizing b with
  | nil => simp [cellsFrom]
  | cons x bs ih =>
    rw [cellsFrom, lookup_cons, ih]
    by_cases h : b = a
    · subst h; simp
    · by_cases h' : b ≤ a
      · obtain ⟨k, hk⟩ : ∃ k, a - b = k + 1 := ⟨a - b - 1, by omega⟩
        have : a - (b + 1) = k := by omega
        simp [h, h', hk, this, show b + 1 ≤ a by omega]
      · simp [h, h', show ¬ b + 1 ≤ a by omega]

/-- Everything a write does to reading: inside the run its bytes, outside what was there before. -/
theorem lookup_write (m : Memory) (b : Nat) (bs : List Byte) (a : Nat) :
    (m.write b bs).lookup a = if b ≤ a ∧ a < b + bs.length then bs[a - b]? else m.lookup a := by
  have h1 := lookup_filter (fun k => decide (k < b)) m a
  have h2 := lookup_filter (fun k => decide (b + bs.length ≤ k)) m a
  rw [Memory.write, Memory.below, Memory.above, lookup_append, lookup_append, h1, h2, lookup_cellsFrom]
  by_cases hlo : b ≤ a
  · by_cases hhi : a < b + bs.length
    · have : a - b < bs.length := by omega
      simp [hlo, hhi, show ¬ a < b by omega, this]
    · have : bs[a - b]? = none := by simp; omega
      simp [hlo, hhi, show ¬ a < b by omega, this, show b + bs.length ≤ a by omega]
  · simp [hlo, show a < b by omega, show ¬ b + bs.length ≤ a by omega]

theorem lookup_write_outside {m : Memory} {b : Nat} {bs : List Byte} {a : Nat}
    (h : a < b ∨ b + bs.length ≤ a) : (m.write b bs).lookup a = m.lookup a := by
  rw [lookup_write, if_neg (by omega)]

theorem lookup_write_inside {m : Memory} {b i : Nat} {bs : List Byte} (h : i < bs.length) :
    (m.write b bs).lookup (b + i) = bs[i]? := by
  rw [lookup_write, if_pos (by omega), Nat.add_sub_cancel_left]

theorem lookup_fill_inside {m : Memory} {b n i : Nat} {f : Nat → Byte} (h : i < n) :
    (m.write b ((List.range n).map f)).lookup (b + i) = some (f i) := by
  rw [lookup_write_inside (by simpa using h)]; simp [h]

theorem lookup_fill_outside {m : Memory} {b n a : Nat} {f : Nat → Byte} (h : a < b ∨ b + n ≤ a) :
    (m.write b ((List.range n).map f)).lookup a = m.lookup a :=
  lookup_write_outside (by simpa using h)

/-! ### The canonical form -/

theorem mem_cellsFrom {bs : List Byte} {b : Nat} {c : Host.Cell} (h : c ∈ cellsFrom b bs) :
    b ≤ c.1 ∧ c.1 < b + bs.length := by
  induction bs generalizing b with
  | nil => simp [cellsFrom] at h
  | cons x bs ih =>
    rcases List.mem_cons.1 h with rfl | h
    · simp
    · have := ih h; simp; omega

theorem cellsFrom_rising (bs : List Byte) (b : Nat) :
    (cellsFrom b bs).Pairwise (fun c d => c.1 < d.1) := by
  induction bs generalizing b with
  | nil => exact List.Pairwise.nil
  | cons x bs ih =>
    refine List.pairwise_cons.2 ⟨fun d hd => ?_, ih (b + 1)⟩
    have := mem_cellsFrom hd
    show b < d.1
    omega

theorem wf_nil : Memory.wf [] := by simp [Memory.wf]

/-- A write of mapped addresses keeps the canonical form. -/
theorem wf_write {m : Memory} {b : Nat} {bs : List Byte} (hm : Memory.wf m)
    (hb : ∀ i < bs.length, mapped (b + i) = true) : Memory.wf (m.write b bs) := by
  obtain ⟨hs, hmap⟩ := hm
  refine ⟨?_, ?_⟩
  · unfold Memory.write Memory.below Memory.above
    rw [List.append_assoc]
    refine List.pairwise_append.2 ⟨hs.filter _, List.pairwise_append.2
      ⟨cellsFrom_rising bs b, hs.filter _, ?_⟩, ?_⟩
    · intro c hc d hd
      have h1 := mem_cellsFrom hc
      have h2 : b + bs.length ≤ d.1 := by simpa using (List.mem_filter.1 hd).2
      omega
    · intro c hc d hd
      have h1 : c.1 < b := by simpa using (List.mem_filter.1 hc).2
      rcases List.mem_append.1 hd with hd | hd
      · have := mem_cellsFrom hd; omega
      · have h2 : b + bs.length ≤ d.1 := by simpa using (List.mem_filter.1 hd).2
        omega
  · intro c hc
    unfold Memory.write Memory.below Memory.above at hc
    rcases List.mem_append.1 hc with hc | hc
    · rcases List.mem_append.1 hc with hc | hc
      · exact hmap c (List.mem_filter.1 hc).1
      · have h := mem_cellsFrom hc
        have := hb (c.1 - b) (by omega)
        rwa [show b + (c.1 - b) = c.1 by omega] at this
    · exact hmap c (List.mem_filter.1 hc).1

theorem lookup_none_of_lt {m : Memory} {a : Nat} (h : ∀ c ∈ m, a < c.1) : m.lookup a = none := by
  induction m with
  | nil => rfl
  | cons c m ih =>
    have := h c (by simp)
    rw [lookup_cons, if_neg (by omega)]
    exact ih fun d hd => h d (by simp [hd])

/-- Memories of the canonical form that read alike are equal. -/
theorem wf_ext {m n : Memory} (hm : Memory.wf m) (hn : Memory.wf n)
    (h : ∀ a, m.lookup a = n.lookup a) : m = n := by
  induction m generalizing n with
  | nil =>
    cases n with
    | nil => rfl
    | cons d n => have := h d.1; simp [lookup_cons] at this
  | cons c m ih =>
    obtain ⟨hms, hmm⟩ := hm
    obtain ⟨hns, hnm⟩ := hn
    cases n with
    | nil => have := h c.1; simp [lookup_cons] at this
    | cons d n =>
      have hcm := (List.pairwise_cons.1 hms).1
      have hdn := (List.pairwise_cons.1 hns).1
      have key : c.1 = d.1 := by
        rcases Nat.lt_trichotomy c.1 d.1 with hlt | heq | hgt
        · have h1 := h c.1
          rw [lookup_none_of_lt (m := d :: n) (by
            intro e he
            rcases List.mem_cons.1 he with rfl | he
            · exact hlt
            · have := hdn e he; omega)] at h1
          simp [lookup_cons] at h1
        · exact heq
        · have h1 := h d.1
          rw [lookup_none_of_lt (m := c :: m) (by
            intro e he
            rcases List.mem_cons.1 he with rfl | he
            · exact hgt
            · have := hcm e he; omega)] at h1
          simp [lookup_cons] at h1
      have hval : c.2 = d.2 := by
        have := h c.1
        simpa [lookup_cons, key] using this
      have hcd : c = d := Prod.ext key hval
      subst hcd
      congr 1
      refine ih ⟨(List.pairwise_cons.1 hms).2, fun e he => hmm e (by simp [he])⟩
        ⟨(List.pairwise_cons.1 hns).2, fun e he => hnm e (by simp [he])⟩ fun a => ?_
      by_cases ha : c.1 = a
      · subst ha
        rw [lookup_none_of_lt hcm, lookup_none_of_lt hdn]
      · have := h a
        simpa [lookup_cons, ha] using this

/-! ### The map of R52 -/

theorem mapped_iff (a : Nat) :
    mapped a = true ↔ a < 2048 ∨ (32768 ≤ a ∧ a < 65536) ∨ (524288 ≤ a ∧ a < 1048576) := by
  simp only [mapped, Bool.or_eq_true, Bool.and_eq_true, decide_eq_true_eq, or_assoc]
  simp

theorem mapped_raw {i : Nat} (h : i < 1024) : mapped (Config.rawBase + i) = true := by
  rw [mapped_iff]; simp; omega

theorem mapped_canon {i : Nat} (h : i < 1024) : mapped (Config.canonBase + i) = true := by
  rw [mapped_iff]; simp; omega

theorem mapped_thumb {i : Nat} (h : i < 32768) : mapped (Config.thumbBase + i) = true := by
  rw [mapped_iff]; simp; omega

theorem mapped_preview {i : Nat} (h : i < 524288) : mapped (Config.previewBase + i) = true := by
  rw [mapped_iff]; simp; omega

/-! ### Reading bytes of a state -/

theorem byteAt_of_lookup {s : State} {a : Nat} {b : Byte} (h : s.mem.lookup a = some b) : byteAt s a = b := by
  simp [byteAt, h]

theorem byteAt_memFill_inside {s : State} {b n i : Nat} {f : Nat → Byte} (h : i < n) :
    byteAt (memFill b n f s) (b + i) = f i :=
  byteAt_of_lookup (by rw [memFill_mem]; exact lookup_fill_inside h)

theorem byteAt_memFill_outside {s : State} {b n a : Nat} {f : Nat → Byte} (h : a < b ∨ b + n ≤ a) :
    byteAt (memFill b n f s) a = byteAt s a := by
  unfold byteAt
  rw [memFill_mem, lookup_fill_outside h, memFill_epoch]

theorem wf_memFill {s : State} {b n : Nat} {f : Nat → Byte} (h : Memory.wf s.mem)
    (hb : ∀ i < n, mapped (b + i) = true) : Memory.wf (memFill b n f s).mem := by
  rw [memFill_mem]
  exact wf_write h (by simpa using hb)

end Sys2Proof.Machine
end

