-- ==== Sys2Proof/Laws/Engines.lean ====
section
/-! SUPPORT. What each engine operation leaves at every buffer address, and the packing of bits into bytes. -/

namespace Sys2Proof.Machine

/-- Bit `7 − j` of a byte packed most significant first is `f j` (R155). -/
theorem bitOf_packMsbFirst (f : Nat → Bool) {j : Nat} (h : j < 8) : bitOf (packMsbFirst f) (7 - j) = f j := by
  unfold packMsbFirst bitOf
  simp only [show List.range 8 = [0, 1, 2, 3, 4, 5, 6, 7] from rfl, List.foldl]
  have : j = 0 ∨ j = 1 ∨ j = 2 ∨ j = 3 ∨ j = 4 ∨ j = 5 ∨ j = 6 ∨ j = 7 := by omega
  rcases this with rfl | rfl | rfl | rfl | rfl | rfl | rfl | rfl <;> simp

/-- Two bytes are equal when their eight bits are. -/
theorem byte_ext {v w : Byte} (h : ∀ i < 8, bitOf v i = bitOf w i) : v = w :=
  BitVec.eq_of_getLsbD_eq fun i hi => h i hi

/-- REPACK, per destination pixel: `canonpix(x, r) = rawpix(x, 63 − r)` (R155). -/
theorem canonPixel_repackByte (raw : Nat → Byte) {x r : Nat} (hx : x < 128) :
    canonPixel (repackByte raw) x r = rawPixel raw x (63 - r) := by
  have h1 : (x / 8 + r * 16) % 16 = x / 8 := by omega
  have h2 : (x / 8 + r * 16) / 16 = r := by omega
  have h3 : 8 * (x / 8) + x % 8 = x := by omega
  simp only [canonPixel, repackByte, canonOffset, canonBit, Config.canonStride, h1, h2]
  rw [bitOf_packMsbFirst _ (by omega), h3]
  simp [flipRow]

theorem bufferBytes_apply (b i : Nat) (s : State) : bufferBytes b s i = byteAt s (b + i) := rfl

/-- The byte at an offset computed from bytes that agree where they are used. -/
theorem repackByte_congr {f g : Nat → Byte} (h : ∀ i < 1024, f i = g i) {a : Nat} (ha : a < 1024) :
    repackByte f a = repackByte g a := by
  refine byte_ext fun i hi => ?_
  obtain ⟨j, hj, rfl⟩ : ∃ j < 8, i = 7 - j := ⟨7 - i, by omega, by omega⟩
  unfold repackByte
  rw [bitOf_packMsbFirst _ hj, bitOf_packMsbFirst _ hj]
  unfold rawPixel
  rw [h]
  simp only [rawOffset, flipRow, Config.canonStride, Config.frameH, Config.pageH, Config.rawStride]
  omega

/-! ### Reading after an engine operation -/

theorem byteAt_repack_canon (s : State) {i : Nat} (h : i < 1024) :
    byteAt (repack s) (Config.canonBase + i) = repackByte (bufferBytes Config.rawBase s) i :=
  byteAt_memFill_inside h

theorem lookup_repack_canon (s : State) {i : Nat} (h : i < 1024) :
    (repack s).mem.lookup (Config.canonBase + i) = some (repackByte (bufferBytes Config.rawBase s) i) :=
  lookup_fill_inside h

theorem lookup_repack_outside (s : State) {a : Nat} (h : a < 1024 ∨ 2048 ≤ a) :
    (repack s).mem.lookup a = s.mem.lookup a :=
  lookup_fill_outside (by simpa using h)

theorem byteAt_repack_outside (s : State) {a : Nat} (h : a < 1024 ∨ 2048 ≤ a) : byteAt (repack s) a = byteAt s a :=
  byteAt_memFill_outside (by simpa using h)

theorem byteAt_colorize_thumb (s : State) {i : Nat} (h : i < 32768) :
    byteAt (colorize s) (Config.thumbBase + i) =
      colorizeByte s.params.thumbRowOrder (bufferBytes Config.canonBase s) i :=
  byteAt_memFill_inside h

theorem lookup_colorize_thumb (s : State) {i : Nat} (h : i < 32768) :
    (colorize s).mem.lookup (Config.thumbBase + i) =
      some (colorizeByte s.params.thumbRowOrder (bufferBytes Config.canonBase s) i) :=
  lookup_fill_inside h

theorem lookup_colorize_outside (s : State) {a : Nat} (h : a < 32768 ∨ 65536 ≤ a) :
    (colorize s).mem.lookup a = s.mem.lookup a :=
  lookup_fill_outside (by simpa using h)

theorem byteAt_colorize_outside (s : State) {a : Nat} (h : a < 32768 ∨ 65536 ≤ a) :
    byteAt (colorize s) a = byteAt s a :=
  byteAt_memFill_outside (by simpa using h)

theorem byteAt_upscale_preview (s : State) {i : Nat} (h : i < 524288) :
    byteAt (upscale s) (Config.previewBase + i) = upscaleByte (bufferBytes Config.thumbBase s) i :=
  byteAt_memFill_inside h

theorem lookup_upscale_preview (s : State) {i : Nat} (h : i < 524288) :
    (upscale s).mem.lookup (Config.previewBase + i) = some (upscaleByte (bufferBytes Config.thumbBase s) i) :=
  lookup_fill_inside h

theorem lookup_upscale_outside (s : State) {a : Nat} (h : a < 524288 ∨ 1048576 ≤ a) :
    (upscale s).mem.lookup a = s.mem.lookup a :=
  lookup_fill_outside (by simpa using h)

theorem byteAt_upscale_outside (s : State) {a : Nat} (h : a < 524288 ∨ 1048576 ≤ a) :
    byteAt (upscale s) a = byteAt s a :=
  byteAt_memFill_outside (by simpa using h)

/-! ### The whole decode -/

theorem lookup_runDecode_raw (s : State) {a : Nat} (h : a < 1024) :
    (runDecode s).mem.lookup a = s.mem.lookup a := by
  unfold runDecode
  rw [lookup_upscale_outside _ (by omega), lookup_colorize_outside _ (by omega), lookup_repack_outside _ (by omega)]

theorem byteAt_runDecode_raw (s : State) {a : Nat} (h : a < 1024) : byteAt (runDecode s) a = byteAt s a := by
  unfold runDecode
  rw [byteAt_upscale_outside _ (by omega), byteAt_colorize_outside _ (by omega), byteAt_repack_outside _ (by omega)]

theorem lookup_runDecode_canon (s : State) {i : Nat} (h : i < 1024) :
    (runDecode s).mem.lookup (Config.canonBase + i) = some (repackByte (bufferBytes Config.rawBase s) i) := by
  unfold runDecode
  rw [lookup_upscale_outside _ (by simp; omega), lookup_colorize_outside _ (by simp; omega),
    lookup_repack_canon _ h]

theorem byteAt_runDecode_canon (s : State) {i : Nat} (h : i < 1024) :
    byteAt (runDecode s) (Config.canonBase + i) = repackByte (bufferBytes Config.rawBase s) i :=
  byteAt_of_lookup (lookup_runDecode_canon s h)

theorem lookup_runDecode_thumb (s : State) {i : Nat} (h : i < 32768) :
    (runDecode s).mem.lookup (Config.thumbBase + i) =
      some (colorizeByte s.params.thumbRowOrder (repackByte (bufferBytes Config.rawBase s)) i) := by
  unfold runDecode
  rw [lookup_upscale_outside _ (by simp; omega), lookup_colorize_thumb _ h]
  rw [repack_params, colorizeByte_congr (f := bufferBytes Config.canonBase (repack s)) (fun j hj => byteAt_repack_canon s hj) h]

theorem byteAt_runDecode_thumb (s : State) {i : Nat} (h : i < 32768) :
    byteAt (runDecode s) (Config.thumbBase + i) =
      colorizeByte s.params.thumbRowOrder (repackByte (bufferBytes Config.rawBase s)) i :=
  byteAt_of_lookup (lookup_runDecode_thumb s h)

theorem lookup_runDecode_preview (s : State) {i : Nat} (h : i < 524288) :
    (runDecode s).mem.lookup (Config.previewBase + i) =
      some (upscaleByte (colorizeByte s.params.thumbRowOrder (repackByte (bufferBytes Config.rawBase s))) i) := by
  unfold runDecode
  rw [lookup_upscale_preview _ h]
  rw [upscaleByte_congr (fun j hj => ?_) h]
  rw [bufferBytes_apply, byteAt_colorize_thumb _ hj, repack_params,
    colorizeByte_congr (f := bufferBytes Config.canonBase (repack s)) (fun k hk => byteAt_repack_canon s hk) hj]

theorem byteAt_runDecode_preview (s : State) {i : Nat} (h : i < 524288) :
    byteAt (runDecode s) (Config.previewBase + i) =
      upscaleByte (colorizeByte s.params.thumbRowOrder (repackByte (bufferBytes Config.rawBase s))) i :=
  byteAt_of_lookup (lookup_runDecode_preview s h)

theorem wf_repack {s : State} (h : Memory.wf s.mem) : Memory.wf (repack s).mem :=
  wf_memFill h fun _ hi => mapped_canon hi

theorem wf_colorize {s : State} (h : Memory.wf s.mem) : Memory.wf (colorize s).mem :=
  wf_memFill h fun _ hi => mapped_thumb hi

theorem wf_upscale {s : State} (h : Memory.wf s.mem) : Memory.wf (upscale s).mem :=
  wf_memFill h fun _ hi => mapped_preview hi

theorem wf_runDecode {s : State} (h : Memory.wf s.mem) : Memory.wf (runDecode s).mem :=
  wf_upscale (wf_colorize (wf_repack h))

end Sys2Proof.Machine
end

