-- ==== Sys2Proof/Laws/PerInstr.lean ====
section
/-! SUPPORT. Per-instruction families (LAWS.json): that every instruction's word selects its own row of the tables of
30_encoding.md R83 and R84. -/

namespace Sys2Proof.Laws

/-- `(W AND mask) = match` for the instruction's own row (R83, R84). -/
def EncodeSelectsRow.Statement (i : Instr) : Prop :=
  i.wellFormed = true → encode i &&& rowMask i = rowMatch i

theorem EncodeSelectsRow.connect (p : Nat) : EncodeSelectsRow.Statement (.connect p) := by
  intro _
  show (0x01#8 ++ BitVec.ofNat 8 p) &&& 0xFF00#16 = 0x0100#16
  generalize BitVec.ofNat 8 p = a
  revert a
  decide

theorem EncodeSelectsRow.disconnect : EncodeSelectsRow.Statement .disconnect := by intro _; decide
theorem EncodeSelectsRow.start : EncodeSelectsRow.Statement .start := by intro _; decide
theorem EncodeSelectsRow.poll : EncodeSelectsRow.Statement .poll := by intro _; decide
theorem EncodeSelectsRow.repack : EncodeSelectsRow.Statement .repack := by intro _; decide
theorem EncodeSelectsRow.colorize : EncodeSelectsRow.Statement .colorize := by intro _; decide
theorem EncodeSelectsRow.upscale : EncodeSelectsRow.Statement .upscale := by intro _; decide

end Sys2Proof.Laws
end

