-- ==== Sys2Proof/Laws/ReferenceEnv.lean ====
section
/-! SUPPORT. The reference environment: what it leaves of the block's state, and what one of its steps can do. -/

namespace Sys2Proof.Machine

@[simp] theorem referenceLink_st (d : ReferenceDevice) (s : State) : (referenceLink d s).st = s.st := rfl
@[simp] theorem referenceLink_conn (d : ReferenceDevice) (s : State) : (referenceLink d s).conn = s.conn := rfl
@[simp] theorem referenceLink_br (d : ReferenceDevice) (s : State) : (referenceLink d s).br = s.br := rfl
@[simp] theorem referenceLink_rc (d : ReferenceDevice) (s : State) : (referenceLink d s).rc = s.rc := rfl
@[simp] theorem referenceLink_resp (d : ReferenceDevice) (s : State) : (referenceLink d s).resp = s.resp := rfl
@[simp] theorem referenceLink_mem (d : ReferenceDevice) (s : State) : (referenceLink d s).mem = s.mem := rfl
@[simp] theorem referenceLink_epoch (d : ReferenceDevice) (s : State) : (referenceLink d s).epoch = s.epoch := rfl
@[simp] theorem referenceLink_host (d : ReferenceDevice) (s : State) : (referenceLink d s).host = s.host := rfl
@[simp] theorem referenceLink_engine (d : ReferenceDevice) (s : State) : (referenceLink d s).engine = s.engine := rfl
@[simp] theorem referenceLink_params (d : ReferenceDevice) (s : State) : (referenceLink d s).params = s.params := rfl
@[simp] theorem referenceLink_link_handle (d : ReferenceDevice) (s : State) :
    (referenceLink d s).link.handle = s.link.handle := rfl
@[simp] theorem referenceLink_link_tx (d : ReferenceDevice) (s : State) :
    (referenceLink d s).link.tx = s.link.tx := rfl
@[simp] theorem referenceLink_link_log (d : ReferenceDevice) (s : State) :
    (referenceLink d s).link.log = s.link.log := rfl
@[simp] theorem referenceLink_openAnswer (d : ReferenceDevice) (s : State) :
    openAnswer (referenceLink d s).env = .ok := rfl
@[simp] theorem referenceLink_writeAnswer (d : ReferenceDevice) (s : State) :
    writeAnswer (referenceLink d s).env = .ok := rfl
@[simp] theorem referenceLink_readAnswer (d : ReferenceDevice) (s : State) :
    readAnswer (referenceLink d s).env = referenceRead [] := rfl
@[simp] theorem referenceLink_closeAnswer (d : ReferenceDevice) (s : State) :
    closeAnswer (referenceLink d s).env = { rx := [], tx := [] } := rfl

/-- While a handle is held the piece joins RXQ (R107). -/
theorem referenceLink_rx_of_handle {d : ReferenceDevice} {s : State} (h : s.link.handle.isSome = true) :
    (referenceLink d s).link.rx = s.link.rx ++ d.piece := if_pos h

/-- "Empty when no handle is held" (R107). -/
theorem referenceLink_rx_of_no_handle {d : ReferenceDevice} {s : State} (h : s.link.handle.isSome = false) :
    (referenceLink d s).link.rx = [] := by simp [referenceLink, h]

/-- Pieces come in offset order and nothing of the reply is lost between device and link (R107). -/
theorem piece_append_pending (d : ReferenceDevice) : d.piece ++ d.afterPiece.pending = d.pending := by
  obtain ⟨frame, pending, pieces⟩ := d
  cases pieces with
  | nil => simp [ReferenceDevice.piece, ReferenceDevice.afterPiece]
  | cons n ns =>
    show pending.take n ++ pending.drop (pending.take n).length = pending
    rw [List.length_take]
    by_cases h : n ≤ pending.length
    · rw [Nat.min_eq_left h, List.take_append_drop]
    · rw [Nat.min_eq_right (by omega), List.take_of_length_le (by omega), List.drop_length, List.append_nil]

/-- A read is given the first `min(|RXQ|, 256)` bytes of the queue (R107). -/
theorem readBytes_referenceLink (d : ReferenceDevice) (s : State) :
    readBytes 256 (referenceLink d s) = (referenceLink d s).link.rx.take 256 := by
  unfold readBytes unreadBytes
  rw [referenceLink_readAnswer]
  simp [referenceRead]

/-- What one step in the reference environment can give: the block's own step, and the device's next state. -/
theorem referenceStep_next {d d' : ReferenceDevice} {s t : State} (h : referenceStep d s = .next (d', t)) :
    step (referenceLink d s) = .next t ∧
      d' = if tokenSent s t then d.afterPiece.answerToken else d.afterPiece := by
  unfold referenceStep at h
  split at h
  · rename_i u hu
    cases h
    exact ⟨hu, rfl⟩
  · cases h
  · cases h

end Sys2Proof.Machine
end

