-- ==== Sys2Proof/Laws/Session.lean ====
section
/-! SUPPORT. What the link primitives, the buffer copy of POLL, and each command can do: one lemma per operation that
lists its cases. -/

namespace Sys2Proof.Machine

/-- The token is TOKEN_LEN bytes (R11, R88). -/
theorem token_length : Config.token.length = Config.tokenLen := rfl

/-- A read returns at most what it was asked for (R105). -/
theorem readBytes_length_le (max : Nat) (s : State) : (readBytes max s).length ≤ max := by
  unfold readBytes
  rw [List.length_take]
  omega

/-- What a read returns, followed by what it leaves, is what was unread (R105). -/
theorem readBytes_append_rest (max : Nat) (s : State) :
    readBytes max s ++ (linkRead max s).link.rx = unreadBytes s := by
  rw [linkRead_link_rx]
  exact List.take_append_drop _ _

theorem copyCount_le_length (d : List Byte) (br : BitVec 11) : copyCount d br ≤ d.length := Nat.min_le_left _ _

theorem copyCount_le_room (d : List Byte) (br : BitVec 11) : copyCount d br ≤ 1024 - br.toNat :=
  Nat.min_le_right _ _

theorem copyCount_pos {d : List Byte} {br : BitVec 11} (hd : 1 ≤ d.length) (hb : br.toNat ≤ 1023) :
    1 ≤ copyCount d br := by
  unfold copyCount Config.frameBytes
  omega

/-- BR after a copy, without wrap-around (R26, R30). -/
theorem acceptBytes_br_toNat (d : List Byte) (s : State) (h : s.br.toNat ≤ 1024) :
    (acceptBytes d s).br.toNat = s.br.toNat + copyCount d s.br := by
  have := copyCount_le_room d s.br
  rw [acceptBytes_br, BitVec.toNat_ofNat, Nat.mod_eq_of_lt (by omega)]

/-- Everything the copy does to reading the buffers. -/
theorem lookup_acceptBytes (d : List Byte) (s : State) (a : Nat) :
    (acceptBytes d s).mem.lookup a =
      if s.br.toNat ≤ a ∧ a < s.br.toNat + copyCount d s.br then d[a - s.br.toNat]? else s.mem.lookup a := by
  have hlen : (d.take (copyCount d s.br)).length = copyCount d s.br := by
    rw [List.length_take]
    have := copyCount_le_length d s.br
    omega
  rw [acceptBytes_mem, lookup_write, hlen]
  simp only [Config.rawBase, Nat.zero_add]
  split
  · rw [List.getElem?_take_of_lt (by omega)]
  · rfl

theorem wf_acceptBytes {d : List Byte} {s : State} (h : Memory.wf s.mem) : Memory.wf (acceptBytes d s).mem := by
  rw [acceptBytes_mem]
  refine wf_write h fun i hi => ?_
  rw [List.length_take] at hi
  have := copyCount_le_room d s.br
  rw [mapped_iff]
  simp only [Config.rawBase]
  omega

/-! ### The cases of each command -/

/-- CONNECT p is one of its four outcomes (R108). -/
theorem connectPort_cases (p : Nat) (s : State) :
    (s.conn = true ∧ connectPort p s = raise .errAlreadyConnected s) ∨
    (s.conn = false ∧ openAnswer s.env = .portUnavailable ∧
      connectPort p s = raise .errPortUnavailable (linkOpen p s)) ∨
    (s.conn = false ∧ openAnswer s.env = .configurationRejected ∧
      connectPort p s = raise .errConfigRejected (linkOpen p s)) ∨
    (s.conn = false ∧ openAnswer s.env = .ok ∧
      connectPort p s = respond .ok { linkPurge (linkOpen p s) with conn := true }) := by
  unfold connectPort
  cases hc : s.conn <;> cases ha : openAnswer s.env <;> simp

/-- DISCONNECT closes and forces Idle, or has no effect but RESP (R110). -/
theorem disconnectPort_cases (s : State) :
    (s.conn = true ∧ disconnectPort s = respond .ok (forceIdle { linkClose s with conn := false })) ∨
    (s.conn = false ∧ disconnectPort s = respond .ok s) := by
  unfold disconnectPort
  cases hc : s.conn <;> simp

/-- START is one of its four outcomes (R121 to R124). -/
theorem startCapture_cases (s : State) :
    (s.conn = false ∧ startCapture s = raise .errNotConnected s) ∨
    (s.conn = true ∧ s.st = .capturing ∧ s.params.startWhileCapturing = .abandonOnly ∧
      startCapture s = respond .ok (forceIdle s)) ∨
    (s.conn = true ∧ ¬ (s.st = .capturing ∧ s.params.startWhileCapturing = .abandonOnly) ∧
      ∃ sent kept, writeAnswer s.env = .error sent kept ∧
        startCapture s = raise .errWrite (linkWrite Config.token (linkPurge (forceIdle s)))) ∨
    (s.conn = true ∧ ¬ (s.st = .capturing ∧ s.params.startWhileCapturing = .abandonOnly) ∧
      writeAnswer s.env = .ok ∧
        startCapture s =
          respond .ok { linkWrite Config.token (linkPurge (forceIdle s)) with
            br := 0, rc := 0, st := .capturing }) := by
  unfold startCapture
  cases hc : s.conn
  · simp
  · by_cases ha : s.st = .capturing ∧ s.params.startWhileCapturing = .abandonOnly
    · simp [ha]
    · simp only [if_true, if_neg ha]
      unfold sendToken
      rw [forceIdle_env]
      cases hw : writeAnswer s.env with
      | ok => simp [ha]
      | error n k =>
        exact .inr (.inr (.inl ⟨trivial, ha, n, k, rfl, rfl⟩))

theorem pollOnce_of_data {s : State} (hst : s.st = .capturing) (hd : 1 ≤ (readBytes 256 s).length) :
    pollOnce s = pollData (readBytes 256 s) (linkRead 256 s) := by
  unfold pollOnce
  rw [if_pos hst]
  exact if_pos hd

theorem pollOnce_of_empty {s : State} (hst : s.st = .capturing) (hd : ¬ 1 ≤ (readBytes 256 s).length) :
    pollOnce s = pollEmpty (linkRead 256 s) := by
  unfold pollOnce
  rw [if_pos hst]
  exact if_neg hd

/-- POLL is one of its five outcomes (R125, R130). -/
theorem pollOnce_cases (s : State) :
    (s.st ≠ .capturing ∧ pollOnce s = respond .evNoop s) ∨
    (s.st = .capturing ∧ 1 ≤ (readBytes 256 s).length ∧
      (acceptBytes (readBytes 256 s) (linkRead 256 s)).br.toNat = 1024 ∧
      pollOnce s = complete (acceptBytes (readBytes 256 s) (linkRead 256 s))) ∨
    (s.st = .capturing ∧ 1 ≤ (readBytes 256 s).length ∧
      (acceptBytes (readBytes 256 s) (linkRead 256 s)).br.toNat ≠ 1024 ∧
      pollOnce s = respond .evData (acceptBytes (readBytes 256 s) (linkRead 256 s))) ∨
    (s.st = .capturing ∧ readBytes 256 s = [] ∧ (s.rc + 1).toNat = 100 ∧
      pollOnce s = timeOut { linkRead 256 s with rc := s.rc + 1 }) ∨
    (s.st = .capturing ∧ readBytes 256 s = [] ∧ (s.rc + 1).toNat ≠ 100 ∧
      pollOnce s = respond .evEmpty { linkRead 256 s with rc := s.rc + 1 }) := by
  by_cases hst : s.st = .capturing
  · by_cases hd : 1 ≤ (readBytes 256 s).length
    · rw [pollOnce_of_data hst hd]
      by_cases hb : (acceptBytes (readBytes 256 s) (linkRead 256 s)).br.toNat = 1024
      · exact .inr (.inl ⟨hst, hd, hb, if_pos hb⟩)
      · exact .inr (.inr (.inl ⟨hst, hd, hb, if_neg hb⟩))
    · have hnil : readBytes 256 s = [] := List.length_eq_zero_iff.1 (by omega)
      rw [pollOnce_of_empty hst hd]
      by_cases hr : (s.rc + 1).toNat = 100
      · exact .inr (.inr (.inr (.inl ⟨hst, hnil, hr, if_pos hr⟩)))
      · exact .inr (.inr (.inr (.inr ⟨hst, hnil, hr, if_neg hr⟩)))
  · exact .inl ⟨hst, if_neg hst⟩

/-! ### The step -/

/-- Where a step that gives a next state took it from. -/
theorem step_cases {s t : State} (h : step s = .next t) :
    (∃ w i, s.engine = some w ∧ decode .engine w = .ok i ∧ exec i (takeEngineWord s) = .next t) ∨
    (s.engine = none ∧ s.host = [] ∧ t = s) ∨
    (∃ rest, s.engine = none ∧ s.host = .reset :: rest ∧ t = resetBlock (takeHostEvent rest s)) ∨
    (∃ w rest i, s.engine = none ∧ s.host = .command w :: rest ∧ decode .host w = .ok i ∧
      exec i (takeHostEvent rest s) = .next t) ∨
    (∃ w rest e, s.engine = none ∧ s.host = .command w :: rest ∧ decode .host w = .error e ∧
      t = illegalCommand (takeHostEvent rest s)) := by
  unfold step at h
  split at h
  · rename_i w hw
    unfold runEngineWord at h
    split at h
    · rename_i i hi
      exact .inl ⟨w, i, hw, hi, h⟩
    · cases h
  · rename_i hn
    split at h
    · rename_i hh
      cases h
      exact .inr (.inl ⟨hn, hh, rfl⟩)
    · rename_i w rest hh
      unfold runHostWord at h
      split at h
      · rename_i i hi
        exact .inr (.inr (.inr (.inl ⟨w, rest, i, hn, hh, hi, h⟩)))
      · rename_i e he
        cases h
        exact .inr (.inr (.inr (.inr ⟨w, rest, e, hn, hh, he, rfl⟩)))
    · rename_i rest hh
      cases h
      exact .inr (.inr (.inl ⟨rest, hn, hh, rfl⟩))

/-- The bytes delivered after one more event of the link. -/
theorem deliveredBytes_append (log : List LinkEvent) (e : LinkEvent) :
    deliveredBytes (log ++ [e]) =
      match e with
      | .purge => []
      | .read _ d => deliveredBytes log ++ d
      | .open_ _ _ | .close | .write _ _ => deliveredBytes log := by
  unfold deliveredBytes
  rw [List.foldl_append]
  cases e <;> rfl

end Sys2Proof.Machine
end

