-- ==== Sys2Proof/Tests/Slice0.lean ====
section
/-! SUPPORT. Tests of one step each, with the expected results of 95_test_vectors.md, and for every obligation that has
hypotheses a state and operands that meet them (`witness_…`). -/

namespace Sys2Proof.Tests

open Sys2Proof Sys2Proof.Machine

/-! ### Small states -/

/-- The columns of the tables of 95 2.2 to 2.4: the registers, STATUS, and the link primitives called. -/
structure View where
  st : St
  conn : Bool
  br : BitVec 11
  rc : BitVec 7
  resp : BitVec 4
  status : BitVec 16
  calls : List LinkEvent
  deriving DecidableEq, Repr

/-- Those columns of a state. -/
def view (s : State) : View := ⟨s.st, s.conn, s.br, s.rc, s.resp, statusWord s, s.link.log⟩

/-- What is seen of the next state, if there is one. -/
def seen {α : Type} (f : State → α) : Host.Outcome State Fault Refusal → Option α
  | .next t => some (f t)
  | .fault _ => none
  | .refused _ => none

/-- A state with these registers, and a handle on port 1 where it is connected. -/
def stateAt (st : St) (conn : Bool) (br : BitVec 11) (rc : BitVec 7) : State :=
  { State.reset with
    st := st, conn := conn, br := br, rc := rc
    link :=
      { handle := if conn then some { port := 1, line := Config.lineConfig } else none
        rx := [], tx := [], log := [] } }

def withOpen (a : OpenAnswer) (s : State) : State := { s with env := { s.env with opens := [a] } }
def withWrite (a : WriteAnswer) (s : State) : State := { s with env := { s.env with writes := [a] } }
/-- A read that returns these bytes. -/
def withRead (d : List Byte) (s : State) : State := { s with env := { s.env with reads := [referenceRead d] } }
/-- The host presents a word next. -/
def withCommand (w : Word) (s : State) : State := { s with host := [.command w] }
def withMemory (m : Memory) (s : State) : State := { s with mem := m }
def withOrder (o : ThumbRowOrder) (s : State) : State := { s with params := { s.params with thumbRowOrder := o } }
def abandonOnly (s : State) : State :=
  { s with params := { s.params with startWhileCapturing := .abandonOnly } }

/-! ### Well-formedness -/

theorem test_connect_255_wellFormed : (Instr.connect 255).wellFormed = true := by decide
theorem test_connect_256_illFormed : (Instr.connect 256).wellFormed = false := by decide
theorem test_connect_not_on_engine_port : (Instr.connect 1).wellFormedOn .engine = false := by decide
theorem test_upscale_not_on_host_port : Instr.upscale.wellFormedOn .host = false := by decide

/-! ### Decoding: words written out bit by bit from R81, R83 and R84 (95 2.1) -/

theorem test_decode_connect : decode .host 0b0000000111111111 = .ok (.connect 255) := by decide
theorem test_decode_connect_3 : decode .host 0b0000000100000011 = .ok (.connect 3) := by decide
theorem test_decode_disconnect : decode .host 0b0000001000000000 = .ok .disconnect := by decide
theorem test_decode_start : decode .host 0b0000001100000000 = .ok .start := by decide
theorem test_decode_poll : decode .host 0b0000010000000000 = .ok .poll := by decide
theorem test_decode_repack : decode .engine 0b0001000000000000 = .ok .repack := by decide
theorem test_decode_colorize : decode .engine 0b0001000100000000 = .ok .colorize := by decide
theorem test_decode_upscale : decode .engine 0b0001001000000000 = .ok .upscale := by decide
theorem test_decode_illegal :
    ([0x0201, 0x0341, 0x0000, 0x0500, 0x1000, 0x1100, 0x1200, 0x4141, 0xFFFF].all fun w =>
      (decode .host w).toOption.isNone) = true := by decide
theorem test_decodeTableWord :
    decodeTableWord 16 0x0103 = some (.connect 3) ∧ decodeTableWord 16 0x1200 = some .upscale ∧
      decodeTableWord 16 0x1201 = none := by decide

/-! ### CONNECT and DISCONNECT (95 2.2) -/

/-- V-L1. -/
theorem test_connect_ok :
    seen view (exec (.connect 3) (withOpen .ok State.reset)) =
      some ⟨.idle, true, 0, 0, 0x0, 0x0004, [.open_ 3 .ok, .purge]⟩ := by decide
/-- V-L5. -/
theorem test_connect_again :
    seen view (exec (.connect 7) (stateAt .capturing true 300 7)) =
      some ⟨.capturing, true, 300, 7, 0xC, 0x0005, []⟩ := by decide
/-- V-L6. -/
theorem test_disconnect_unconnected :
    seen view (exec .disconnect State.reset) =
      some ⟨.idle, false, 0, 0, 0x0, 0x0000, []⟩ := by decide
/-- V-L10. -/
theorem test_disconnect_timedOut :
    seen view (exec .disconnect (stateAt .timedOut true 17 100)) =
      some ⟨.idle, false, 0, 0, 0x0, 0x0000, [.close]⟩ := by decide

/-! ### START (95 2.3) -/

/-- V-S5. -/
theorem test_start_timedOut :
    seen view
        (exec .start (withWrite .ok (stateAt .timedOut true 500 100))) =
      some ⟨.capturing, true, 0, 0, 0x0, 0x0005, [.purge, .write [0x41, 0x41] .ok]⟩ := by decide
/-- V-S8. -/
theorem test_start_write_error :
    seen view
        (exec .start (withWrite (.error 1 0) (stateAt .capturing true 500 42))) =
      some ⟨.idle, true, 0, 0, 0xA, 0x0004, [.purge, .write [0x41, 0x41] (.error 1 0)]⟩ := by decide

/-! ### POLL (95 2.4) -/

/-- V-P14. -/
theorem test_poll_timeout :
    seen (fun t => (view t, (progress t).toNat, timeoutDiagnostic t))
        (exec .poll (withRead [] (stateAt .capturing true 500 99))) =
      some (⟨.timedOut, true, 500, 100, 0x4, 0x0007, [.read 256 []]⟩, 48, some (500, 1024)) := by decide
/-- V-P16. -/
theorem test_poll_last_moment :
    seen (fun t => (view t, (progress t).toNat, memRead t 500 3))
        (exec .poll (withRead [7, 8, 9] (stateAt .capturing true 500 99))) =
      some (⟨.capturing, true, 503, 0, 0x1, 0x0005, [.read 256 [7, 8, 9]]⟩, 49, [7, 8, 9]) := by decide

/-- The table of PG under 95 2.4. -/
theorem test_progress :
    ([0, 1, 10, 11, 255, 256, 511, 512, 768, 1013, 1014, 1023, 1024].map fun b =>
        (progress (stateAt .capturing true b 0)).toNat) =
      [0, 0, 0, 1, 24, 25, 49, 50, 75, 98, 99, 99, 100] := by decide
/-- STATUS of the end state of P1. -/
theorem test_status_done : statusWord (stateAt .done true 1024 0) = 0x000E := by decide

/-! ### The engines (95 2.5, 2.7) -/

/-- The RAW bytes of byte column 0 of band 1, with pixel (5, 10) set. -/
def rawPixel510 : State := withMemory (cellsFrom 128 [0, 0, 0, 0, 0, 0x04, 0, 0]) (stateAt .capturing true 0 0)
/-- V-T5. -/
theorem test_repack :
    ∃ t, exec .repack rawPixel510 = .next t ∧ byteAt t (Config.canonBase + 848) = 0x04 :=
  ⟨_, rfl, (byteAt_repack_canon _ (by omega)).trans (by decide)⟩

/-- The CANON byte of V-T5. -/
def canonPixel510 : State := withMemory [(0x750, 0x04)] (stateAt .capturing true 0 0)
/-- V-C5, raw_order. -/
theorem test_colorize_rawOrder :
    ∃ t, exec .colorize canonPixel510 = .next t ∧
      ∀ c < 4, byteAt t (Config.thumbBase + (5140 + c)) = ([0x00, 0x00, 0x00, 0xFF] : List Byte).getD c 0x77 :=
  ⟨_, rfl, fun c hc => (byteAt_colorize_thumb _ (by omega)).trans (by revert c; decide)⟩
/-- V-C5, canonical_order. -/
theorem test_colorize_canonicalOrder :
    ∃ t, exec .colorize (withOrder .canonicalOrder canonPixel510) = .next t ∧
      ∀ c < 4, byteAt t (Config.thumbBase + (27156 + c)) = ([0x00, 0x00, 0x00, 0xFF] : List Byte).getD c 0x77 :=
  ⟨_, rfl, fun c hc => (byteAt_colorize_thumb _ (by omega)).trans (by revert c; decide)⟩

/-- The THUMB pixel of V-C5, raw_order. -/
def thumbPixel510 : State :=
  withMemory (cellsFrom 0x9414 [0x00, 0x00, 0x00, 0xFF]) (stateAt .capturing true 0 0)
/-- V-C5: the first and the last dark pixel of the block. -/
theorem test_upscale :
    ∃ t, exec .upscale thumbPixel510 = .next t ∧
      ∀ c < 4,
        byteAt t (Config.previewBase + (82000 + c)) = ([0x00, 0x00, 0x00, 0xFF] : List Byte).getD c 0x77 ∧
        byteAt t (Config.previewBase + (88156 + c)) = ([0x00, 0x00, 0x00, 0xFF] : List Byte).getD c 0x77 :=
  ⟨_, rfl, fun c hc =>
    ⟨(byteAt_upscale_preview _ (by omega)).trans (by revert c; decide),
      (byteAt_upscale_preview _ (by omega)).trans (by revert c; decide)⟩⟩

/-! ### The host's side -/

theorem test_illegal_word :
    seen view (step (withCommand 0x0341 (stateAt .capturing true 300 7))) =
      some ⟨.capturing, true, 300, 7, 0xF, 0x0005, []⟩ := by decide
/-- S6. -/
theorem test_natural_ordering :
    listPorts "X" (some [⟨"X", ['3']⟩, ⟨"X", ['1', '0']⟩, ⟨"Y", ['2']⟩, ⟨"X", ['1']⟩]) =
      [⟨"X", ['1']⟩, ⟨"X", ['3']⟩, ⟨"X", ['1', '0']⟩] := by decide
/-- R187. -/
theorem test_unsupported_enumeration : listPorts "X" none = [] := by decide
/-- R188: the numeric suffix is the operand; R189: no number, no operand. -/
theorem test_connectTo :
    connectTo ⟨"X", ['1', '0']⟩ = some (.connect 10) ∧ connectTo ⟨"X", []⟩ = none ∧
      connectTo ⟨"X", ['1', 'a']⟩ = none ∧ connectTo ⟨"X", ['2', '5', '6']⟩ = none := by decide
/-- R194: the selection is clamped to the shorter range, the next id stays. -/
theorem test_remove_clamps :
    let image : CapturedImage := { id := 1, name := "a", timestamp := 0, raw := [], thumbnail := [], preview := [] }
    removeImage 1 { images := [image, { image with id := 2 }], nextId := 3, selected := some 1 } =
      .ok { images := [image], nextId := 3, selected := some 0 } := by decide

/-! ### Witnesses: states and operands that meet the hypotheses of the obligations -/

theorem witness_DecodeOfEncode :
    (Instr.connect 255).wellFormed = true ∧ (Instr.connect 0).wellFormed = true ∧
      Instr.upscale.wellFormed = true ∧ Port.engine ≠ (Instr.connect 255).port := by decide

theorem witness_EncodeOfDecode :
    decode .host 0x01FF = .ok (.connect 255) ∧ decode .engine 0x1000 = .ok .repack := by decide

/-- The first and the last word of each reserved range, and an engine word, each illegal and presented. -/
theorem witness_IllegalHostWords :
    ([0x0000, 0x00FF, 0x0201, 0x04FF, 0x0500, 0x0FFF, 0x1001, 0x12FF, 0x1300, 0xFFFF, 0x1000].all fun w =>
      (decode .host w).toOption.isNone && decide ((withCommand w State.reset).host = [.command w]) &&
        decide ((withCommand w State.reset).engine = none)) = true := by decide

/-- A state with a word on the engine port. -/
def withEngine (w : Word) (s : State) : State := { s with engine := some w }

theorem witness_EnginePortRefusesOtherWords :
    (withEngine 0x1001 State.reset).engine = some 0x1001 ∧ (0x1001 : Word) ∉ [(0x1000 : Word), 0x1100, 0x1200] ∧
      (0x0100 : Word) ∉ [(0x1000 : Word), 0x1100, 0x1200] := by decide

theorem witness_StepRunsDecodedInstruction :
    (withCommand 0x0400 State.reset).engine = none ∧
      (withCommand 0x0400 State.reset).host = .command 0x0400 :: [] ∧ decode .host 0x0400 = .ok .poll ∧
      (withEngine 0x1100 State.reset).engine = some 0x1100 ∧ decode .engine 0x1100 = .ok .colorize := by decide

theorem witness_StepWaitsWithoutCommand : State.reset.engine = none ∧ State.reset.host = [] := by decide

theorem witness_PresentedWordRuns : (Instr.connect 7).wellFormed = true ∧ Instr.repack.wellFormed = true := by decide

/-! Each case of CONNECT, DISCONNECT and START. -/

theorem witness_ConnectOutcomes :
    255 < 256 ∧ (stateAt .capturing true 300 7).conn = true ∧
      ((withOpen .portUnavailable State.reset).conn = false ∧
        openAnswer (withOpen .portUnavailable State.reset).env = .portUnavailable) ∧
      ((withOpen .configurationRejected State.reset).conn = false ∧
        openAnswer (withOpen .configurationRejected State.reset).env = .configurationRejected) ∧
      ((withOpen .ok State.reset).conn = false ∧ openAnswer (withOpen .ok State.reset).env = .ok) := by decide

theorem witness_ConnectConfiguresTheLine :
    (withOpen .ok State.reset).conn = false ∧ openAnswer (withOpen .ok State.reset).env = .ok := by decide

theorem witness_DisconnectOutcomes :
    State.reset.conn = false ∧ (stateAt .timedOut true 17 100).conn = true ∧
      ∃ t, exec .disconnect (stateAt .timedOut true 17 100) = .next t :=
  ⟨by decide, by decide, _, rfl⟩

/-- The counters of a capture at either end of their ranges, of a result, of a timeout, and after reset. -/
theorem counterInv_stateAt :
    CounterInv (stateAt .capturing true 0 0) ∧ CounterInv (stateAt .capturing true 1023 99) ∧
      CounterInv (stateAt .done true 1024 0) ∧ CounterInv (stateAt .timedOut true 1023 100) ∧
      CounterInv State.reset := by
  refine ⟨?_, ?_, ?_, ?_, ?_⟩ <;> constructor <;> decide

theorem linkInv_stateAt (st : St) (br : BitVec 11) (rc : BitVec 7) : LinkInv (stateAt st true br rc) :=
  ⟨rfl, fun h hh => by simp [stateAt] at hh; subst hh; rfl⟩

theorem witness_DisconnectReachesResetRegisters :
    CounterInv (stateAt .capturing true 1023 99) ∧ LinkInv (stateAt .capturing true 1023 99) :=
  ⟨counterInv_stateAt.2.1, linkInv_stateAt _ _ _⟩

theorem witness_StartWithoutConnection : State.reset.conn = false ∧ CounterInv State.reset :=
  ⟨rfl, counterInv_stateAt.2.2.2.2⟩

/-- A START in Capturing, and one in Done where the parameter does not matter. -/
theorem witness_StartSendsToken :
    ((withWrite .ok (stateAt .capturing true 500 42)).conn = true ∧
      (withWrite .ok (stateAt .capturing true 500 42)).params.startWhileCapturing = .restart ∧
      writeAnswer (withWrite .ok (stateAt .capturing true 500 42)).env = .ok) ∧
    ((withWrite .ok (abandonOnly (stateAt .done true 1024 0))).conn = true ∧
      (withWrite .ok (abandonOnly (stateAt .done true 1024 0))).st ≠ .capturing ∧
      writeAnswer (withWrite .ok (abandonOnly (stateAt .done true 1024 0))).env = .ok) := by decide

theorem witness_StartWriteFailure :
    (withWrite (.error 1 0) (stateAt .done true 1024 0)).conn = true ∧
      (withWrite (.error 1 0) (stateAt .done true 1024 0)).st ≠ .capturing ∧
      writeAnswer (withWrite (.error 1 0) (stateAt .done true 1024 0)).env = .error 1 0 := by decide

theorem witness_StartAbandonsOnly :
    (abandonOnly (stateAt .capturing true 500 42)).conn = true ∧
      (abandonOnly (stateAt .capturing true 500 42)).st = .capturing ∧
      (abandonOnly (stateAt .capturing true 500 42)).params.startWhileCapturing = .abandonOnly := by decide

/-! Each case of POLL, at the ends of the ranges of BR and RC. -/

theorem witness_PollOutsideCapturing :
    State.reset.st ≠ .capturing ∧ (stateAt .done true 1024 0).st ≠ .capturing ∧
      (stateAt .timedOut true 17 100).st ≠ .capturing := by decide

/-- One byte at BR = 0, and one that brings BR to 1023. -/
theorem witness_PollStoresData :
    ([9] = readBytes 256 (withRead [9] (stateAt .capturing true 0 0)) ∧ 1 = min [9].length (1024 - 0) ∧
      0 + 1 < 1024) ∧
    ([9] = readBytes 256 (withRead [9] (stateAt .capturing true 1022 99)) ∧ 1 = min [9].length (1024 - 1022) ∧
      1022 + 1 < 1024) := by decide

/-- V-P10 with two bytes: one is stored, one dropped. -/
theorem witness_PollCompletesCapture :
    (withRead [7, 8] (stateAt .capturing true 1023 99)).st = .capturing ∧
      [7, 8] = readBytes 256 (withRead [7, 8] (stateAt .capturing true 1023 99)) ∧
      1 = min [7, 8].length (1024 - (stateAt .capturing true 1023 99).br.toNat) ∧
      (stateAt .capturing true 1023 99).br.toNat + 1 = 1024 := by decide

theorem witness_PollEmptyAndTimeout :
    readBytes 256 (withRead [] (stateAt .capturing true 500 98)) = [] ∧
      (stateAt .capturing true 500 98).rc.toNat + 1 < 100 ∧
      readBytes 256 (withRead [] (stateAt .capturing true 500 99)) = [] ∧
      (stateAt .capturing true 500 99).rc.toNat + 1 = 100 := by decide

/-- A capture on the silent link of S9: the queue is empty and the next 100 reads find nothing arrived. -/
def silent : State :=
  { stateAt .capturing true 500 0 with
    env := { State.reset.env with reads := List.replicate 100 (referenceRead []) } }

/-- Nothing is unread, and nothing will have arrived at the next `n` reads. -/
def SilentLink (n : Nat) (s : State) : Prop :=
  s.link.rx = [] ∧ ∃ m, n ≤ m ∧ s.env.reads = List.replicate m (referenceRead [])

theorem readBytes_of_silentLink {n : Nat} {s : State} (h : SilentLink (n + 1) s) : readBytes 256 s = [] := by
  obtain ⟨hrx, m, hm, hr⟩ := h
  obtain ⟨k, rfl⟩ : ∃ k, m = k + 1 := ⟨m - 1, by omega⟩
  rw [List.replicate_succ] at hr
  simp [readBytes, unreadBytes, readAnswer, hrx, hr, referenceRead]

theorem silentLink_pollOnce {n : Nat} {s : State} (h : SilentLink (n + 1) s) : SilentLink n (pollOnce s) := by
  have hd := readBytes_of_silentLink h
  obtain ⟨hrx, m, hm, hr⟩ := h
  obtain ⟨k, rfl⟩ : ∃ k, m = k + 1 := ⟨m - 1, by omega⟩
  rw [List.replicate_succ] at hr
  have hl : SilentLink n (linkRead 256 s) :=
    ⟨by simp [linkRead, unreadBytes, readAnswer, hrx, hr, referenceRead], k, by omega,
      by simp [linkRead, readAnswered, hr]⟩
  rcases pollOnce_cases s with ⟨-, he⟩ | ⟨-, hd', -⟩ | ⟨-, hd', -⟩ | ⟨-, -, -, he⟩ | ⟨-, -, -, he⟩
  · rw [he]
    exact ⟨hrx, k + 1, by omega, by rw [List.replicate_succ]; exact hr⟩
  · rw [hd] at hd'; simp at hd'
  · rw [hd] at hd'; simp at hd'
  · rw [he]; exact hl
  · rw [he]; exact hl

theorem silentPolls_of_silentLink {n : Nat} {s : State} (h : SilentLink n s) : SilentPolls n s := by
  intro k hk t ht
  induction k generalizing n s with
  | zero =>
    cases ht
    obtain ⟨m, rfl⟩ : ∃ m, n = m + 1 := ⟨n - 1, by omega⟩
    exact readBytes_of_silentLink h
  | succ k ih =>
    obtain ⟨m, rfl⟩ : ∃ m, n = m + 1 := ⟨n - 1, by omega⟩
    exact ih (silentLink_pollOnce h) (by omega) ht

theorem witness_HundredEmptyPollsTimeOut : silent.st = .capturing ∧ silent.rc = 0 ∧ SilentPolls 100 silent :=
  ⟨by decide, by decide, silentPolls_of_silentLink ⟨by decide, 100, by omega, rfl⟩⟩

theorem witness_PollingEndsWithinBound :
    CounterInv (stateAt .capturing true 0 0) ∧ (stateAt .capturing true 0 0).st = .capturing ∧
      CounterInv (stateAt .capturing true 1023 99) ∧ (stateAt .capturing true 1023 99).st = .capturing :=
  ⟨counterInv_stateAt.1, rfl, counterInv_stateAt.2.1, rfl⟩

theorem witness_ProgressIsMonotonic : CounterInv (stateAt .capturing true 0 0) := counterInv_stateAt.1

/-! The engines. -/

theorem witness_RepackLoopAgrees : Memory.wf rawPixel510.mem := by decide
theorem witness_ColorizeLoopAgrees : Memory.wf canonPixel510.mem := by decide
theorem witness_UpscaleLoopAgrees : Memory.wf thumbPixel510.mem := by decide

/-- The pixels (127, 63) and (0, 0) of the raw order: the first set, the second clear (V-C4). -/
theorem witness_ColorizeResult :
    bitOf (byteAt (withMemory [(0x40F, 0x01), (0x7F0, 0x00)] State.reset) (0x00400 + (127 / 8 + (63 - 63) * 16)))
        (7 - 127 % 8) = true ∧
      bitOf (byteAt (withMemory [(0x40F, 0x01), (0x7F0, 0x00)] State.reset) (0x00400 + (0 / 8 + (63 - 0) * 16)))
        (7 - 0 % 8) = false := by decide

theorem witness_DecodeFromRawFrame :
    rawPixel510.params.thumbRowOrder = .rawOrder ∧
      (withOrder .canonicalOrder rawPixel510).params.thumbRowOrder = .canonicalOrder := by decide

/-- Two states that differ in a CANON byte, the registers and the link, with the same RAW. -/
theorem witness_DecodeDependsOnlyOnRaw :
    (withMemory [(5, 0xA5)] State.reset).params =
        (withMemory [(5, 0xA5), (0x400, 0x01)] (stateAt .done true 1024 0)).params ∧
      ∀ i < 1024, byteAt (withMemory [(5, 0xA5)] State.reset) i =
        byteAt (withMemory [(5, 0xA5), (0x400, 0x01)] (stateAt .done true 1024 0)) i := by
  refine ⟨rfl, fun i hi => ?_⟩
  show Option.getD (Memory.lookup [(5, 0xA5)] i) _ = Option.getD (Memory.lookup [(5, 0xA5), (0x400, 0x01)] i) _
  simp only [lookup_cons, lookup_nil, if_neg (show ¬ 0x400 = i by omega)]
  rfl

theorem witness_ResetEvent :
    ({ stateAt .capturing true 300 7 with host := [.reset] } : State).engine = none ∧
      ({ stateAt .capturing true 300 7 with host := [.reset] } : State).host = .reset :: [] := by decide

/-! The invariants: a capture under way and a finished one, each about to take a command. -/

/-- Three bytes received, two about to be read by a POLL. -/
def underWay : State :=
  { stateAt .capturing true 3 0 with
    mem := cellsFrom 0 [1, 2, 3]
    host := [.command 0x0400]
    env := { State.reset.env with reads := [referenceRead [4, 5]] }
    link :=
      { handle := some { port := 1, line := Config.lineConfig }, rx := [], tx := []
        log := [.purge, .write [0x41, 0x41] .ok, .read 256 [1, 2, 3]] } }

theorem underWay_sound : Sound underWay where
  counters := by constructor <;> decide
  memory := by decide
  buffers := ⟨fun _ => by decide, by simp [underWay, stateAt], by simp [underWay, stateAt],
    by simp [underWay, stateAt], by simp [underWay, stateAt]⟩
  delivery := ⟨fun _ => by decide, by simp [underWay, stateAt], fun _ => by decide⟩
  link := ⟨rfl, fun h hh => by simp [underWay] at hh; subst hh; rfl⟩
  response := by decide

theorem underWay_step : ∃ t, step underWay = .next t ∧ t.br = 5 ∧ memRead t 0 5 = [1, 2, 3, 4, 5] :=
  ⟨_, rfl, rfl, by decide⟩

/-- 256 zero bytes. -/
def zeros : List Byte := List.replicate 256 0

/-- A RawFrame of zeros, received in four reads. -/
def zeroFrame : State :=
  { memFill Config.rawBase Config.frameBytes (fun _ => 0) (stateAt .done true 1024 0) with
    host := [.command 0x0400]
    link :=
      { handle := some { port := 1, line := Config.lineConfig }, rx := [], tx := []
        log := [.purge, .read 256 zeros, .read 256 zeros, .read 256 zeros, .read 256 zeros] } }

/-- The state its decode leaves. -/
def finished : State := runDecode zeroFrame

theorem finished_lookup_raw {i : Nat} (h : i < 1024) : finished.mem.lookup (Config.rawBase + i) = some 0 := by
  rw [show Config.rawBase + i = i from Nat.zero_add i]
  refine (lookup_runDecode_raw zeroFrame h).trans ?_
  have hz : zeroFrame.mem =
      (memFill Config.rawBase Config.frameBytes (fun _ => 0) (stateAt .done true 1024 0)).mem := rfl
  rw [hz, memFill_mem, ← show Config.rawBase + i = i from Nat.zero_add i]
  exact lookup_fill_inside h

theorem finished_counters : CounterInv finished := by constructor <;> decide

theorem finished_buffers : BufferInv finished where
  received := fun h => by cases h
  specified := by
    intro _ a ha
    rcases (mapped_iff a).1 ha with h | h | h
    · by_cases hr : a < 1024
      · have := finished_lookup_raw hr
        rw [show Config.rawBase + a = a from Nat.zero_add a] at this
        rw [this]; rfl
      · have := lookup_runDecode_canon zeroFrame (i := a - 1024) (by omega)
        rw [show Config.canonBase + (a - 1024) = a by simp; omega] at this
        exact Option.isSome_iff_exists.2 ⟨_, this⟩
    · have := lookup_runDecode_thumb zeroFrame (i := a - 32768) (by omega)
      rw [show Config.thumbBase + (a - 32768) = a by simp; omega] at this
      exact Option.isSome_iff_exists.2 ⟨_, this⟩
    · have := lookup_runDecode_preview zeroFrame (i := a - 524288) (by omega)
      rw [show Config.previewBase + (a - 524288) = a by simp; omega] at this
      exact Option.isSome_iff_exists.2 ⟨_, this⟩
  canon := by
    intro _ i hi
    refine (byteAt_runDecode_canon zeroFrame hi).trans (repackByte_congr (fun j hj => ?_) hi)
    refine (byteAt_runDecode_raw zeroFrame ?_).symm
    simpa using hj
  thumb := by
    intro _ i hi
    exact (byteAt_runDecode_thumb zeroFrame hi).trans
      (colorizeByte_congr (fun j hj => (byteAt_runDecode_canon zeroFrame hj).symm) hi)
  preview := by
    intro _ i hi
    exact (byteAt_runDecode_preview zeroFrame hi).trans
      (upscaleByte_congr (fun j hj => (byteAt_runDecode_thumb zeroFrame hj).symm) hi)

theorem finished_delivered : deliveredBytes finished.link.log = List.replicate 1024 0 := by
  show deliveredBytes [.purge, .read 256 zeros, .read 256 zeros, .read 256 zeros, .read 256 zeros] = _
  show ((([] ++ zeros) ++ zeros) ++ zeros) ++ zeros = _
  simp only [zeros, List.nil_append, List.replicate_append_replicate]

theorem finished_delivery : DeliveryInv finished where
  capturing := fun h => by cases h
  done := fun _ => by rw [finished_delivered, List.length_replicate]
  stored := by
    intro _ i hi
    have hi : i < 1024 := hi
    rw [finished_delivered, finished_lookup_raw hi, List.getElem?_replicate, if_pos hi]

theorem finished_sound : Sound finished where
  counters := finished_counters
  memory := wf_runDecode (wf_memFill (s := stateAt .done true 1024 0) wf_nil fun _ hi => mapped_raw hi)
  buffers := finished_buffers
  delivery := finished_delivery
  link := ⟨rfl, fun h hh => by cases hh; rfl⟩
  response := by decide

theorem finished_step : ∃ t, step finished = .next t ∧ t.st = .done ∧ t.resp = 0x5 := ⟨_, rfl, rfl, rfl⟩

theorem witness_StepKeepsCounters : CounterInv underWay ∧ ∃ t, step underWay = .next t :=
  ⟨underWay_sound.counters, _, rfl⟩
theorem witness_StepKeepsMemoryForm : Memory.wf underWay.mem ∧ ∃ t, step underWay = .next t :=
  ⟨underWay_sound.memory, _, rfl⟩
theorem witness_StepKeepsBuffers :
    (CounterInv underWay ∧ BufferInv underWay ∧ ∃ t, step underWay = .next t) ∧
      CounterInv finished ∧ BufferInv finished ∧ ∃ t, step finished = .next t :=
  ⟨⟨underWay_sound.counters, underWay_sound.buffers, _, rfl⟩, finished_counters, finished_buffers, _, rfl⟩
theorem witness_StepKeepsDelivery :
    (CounterInv underWay ∧ DeliveryInv underWay ∧ ∃ t, step underWay = .next t) ∧
      CounterInv finished ∧ DeliveryInv finished ∧ ∃ t, step finished = .next t :=
  ⟨⟨underWay_sound.counters, underWay_sound.delivery, _, rfl⟩, finished_counters, finished_delivery, _, rfl⟩
theorem witness_StepKeepsLink : LinkInv underWay ∧ ∃ t, step underWay = .next t := ⟨underWay_sound.link, _, rfl⟩
theorem witness_StepKeepsLegalResponse : legalResponse underWay.resp = true ∧ ∃ t, step underWay = .next t :=
  ⟨underWay_sound.response, _, rfl⟩
theorem witness_StepKeepsParameters : ∃ t, step underWay = .next t := ⟨_, rfl⟩
theorem witness_StepFollowsTransitionTable :
    (CounterInv underWay ∧ underWay.params.startWhileCapturing = .restart ∧ underWay.engine = none ∧
      underWay.host = .command 0x0400 :: []) ∧
      ∃ t, step { stateAt .timedOut true 17 100 with host := [.reset] } = .next t ∧ t.st ≠ .timedOut :=
  ⟨⟨underWay_sound.counters, rfl, rfl, rfl⟩, _, rfl, by decide⟩

/-- The completing POLL of V-P8. -/
theorem witness_HandoffOnlyAtCompletion :
    CounterInv (withRead [7] (stateAt .capturing true 1023 99)) ∧ Instr.poll.port = .host ∧
      (∃ t, exec .poll (withRead [7] (stateAt .capturing true 1023 99)) = .next t ∧ imageHandoff t = true) ∧
      (∀ w, .command w ∈ (withCommand 0x0400 (withRead [7] (stateAt .capturing true 1023 99))).host →
        decode .host w ≠ .ok .start) ∧
      signalsHandoff (withCommand 0x0400 (withRead [7] (stateAt .capturing true 1023 99))) = true :=
  ⟨by constructor <;> decide, rfl, ⟨_, rfl, rfl⟩, fun w hw => by simp [withCommand] at hw; subst hw; decide, rfl⟩

/-- Done left by START, with either answer to its write, TimedOut by DISCONNECT and by reset. -/
theorem witness_TerminalStatesLeftOnly :
    writeAnswer (withWrite .ok (stateAt .done true 1024 0)).env = .ok ∧
    writeAnswer (withWrite (.error 0 2) (stateAt .done true 1024 0)).env = .error 0 2 ∧
    (∃ t, step (withCommand 0x0300 (withWrite .ok (stateAt .done true 1024 0))) = .next t ∧ t.st ≠ .done) ∧
    (∃ t, step (withCommand 0x0200 (stateAt .timedOut true 1023 100)) = .next t ∧ t.st ≠ .timedOut) ∧
    (∃ t, step { stateAt .timedOut true 1023 100 with host := [.reset] } = .next t ∧ t.st ≠ .timedOut) ∧
    CounterInv (withCommand 0x0300 (withWrite .ok (stateAt .done true 1024 0))) ∧
    CounterInv (withCommand 0x0200 (stateAt .timedOut true 1023 100)) :=
  ⟨by decide, by decide, ⟨_, rfl, by decide⟩, ⟨_, rfl, by decide⟩, ⟨_, rfl, by decide⟩, by constructor <;> decide,
    by constructor <;> decide⟩

/-- A capture left by DISCONNECT, and one begun anew by START. -/
theorem witness_CaptureCancelledOnly :
    (∃ t, step (withCommand 0x0200 (stateAt .capturing true 300 7)) = .next t ∧ t.st = .idle) ∧
    (∃ t, step (withCommand 0x0300 (withWrite .ok (stateAt .capturing true 300 7))) = .next t ∧
      t.br.toNat < 300) ∧
    CounterInv (withCommand 0x0200 (stateAt .capturing true 300 7)) ∧
    CounterInv (withCommand 0x0300 (withWrite .ok (stateAt .capturing true 300 7))) :=
  ⟨⟨_, rfl, rfl⟩, ⟨_, rfl, by decide⟩, by constructor <;> decide, by constructor <;> decide⟩

theorem witness_ProgressReads :
    (stateAt .capturing true 0 0).br.toNat ≤ 1024 ∧ (stateAt .capturing true 1023 0).br.toNat ≤ 1024 ∧
      (stateAt .done true 1024 0).br.toNat ≤ 1024 := by decide

/-- The first and last address of every buffer and of both holes, and a step that stays in Done. -/
theorem witness_BufferReads :
    (stateAt .done true 1024 0).st = .done ∧
      ([0x00000, 0x003FF, 0x00400, 0x007FF, 0x08000, 0x0FFFF, 0x80000, 0xFFFFF].all mapped) = true ∧
      ([0x00800, 0x07FFF, 0x10000, 0x7FFFF].all fun a => !mapped a) = true ∧
      State.reset.st ≠ .done ∧ CounterInv finished ∧ BufferInv finished ∧
      ∃ t, step finished = .next t ∧ t.st = .done :=
  ⟨rfl, by decide, by decide, by decide, finished_counters, finished_buffers, _, rfl, rfl⟩

theorem witness_UnspecifiedBuffers :
    (stateAt .done true 1024 0).conn = true ∧ (withRead [] (stateAt .capturing true 500 99)).st = .capturing ∧
      readBytes 256 (withRead [] (stateAt .capturing true 500 99)) = [] ∧
      (withRead [] (stateAt .capturing true 500 99)).rc.toNat = 99 := by decide

theorem witness_PurgeLeavesNothingUnread :
    (withOpen .ok State.reset).conn = false ∧ openAnswer (withOpen .ok State.reset).env = .ok ∧
      (withWrite .ok (stateAt .timedOut true 17 100)).conn = true ∧
      (withWrite .ok (stateAt .timedOut true 17 100)).st ≠ .capturing ∧
      writeAnswer (withWrite .ok (stateAt .timedOut true 17 100)).env = .ok ∧
      (withWrite .ok (stateAt .capturing true 500 42)).conn = true ∧
      (withWrite .ok (stateAt .capturing true 500 42)).params.startWhileCapturing = .restart ∧
      writeAnswer (withWrite .ok (stateAt .capturing true 500 42)).env = .ok := by decide

/-- 256 bytes that continue an empty queue, and a first part of a queue of two. -/
theorem witness_ReadsAreOldestAndFree :
    zeros.length ≤ 256 ∧ State.reset.link.rx <+: zeros ∧ [7] <+: ([7, 8] : List Byte) :=
  ⟨by rw [zeros, List.length_replicate], List.nil_prefix, by decide⟩

theorem witness_ReferenceReads :
    (withRead [7, 8] (stateAt .capturing true 0 0)).env.reads = referenceRead [7, 8] :: [] := by decide

/-- The finished capture right after its EV_DONE, and after a further POLL. -/
theorem witness_HandoffAppendsImage :
    ({ finished with resp := 0x3 } : State).st = .done ∧ imageHandoff { finished with resp := 0x3 } = true ∧
      imageHandoff { finished with resp := 0x5 } = false ∧
      (∃ t, exec .poll { withRead [7] (stateAt .capturing true 1023 99) with engine := none } = .next t ∧
        imageHandoff t = true) :=
  ⟨rfl, by decide, by decide, _, rfl, rfl⟩

/-- A store of two images. -/
def twoImages : ImageStore :=
  { images :=
      [{ id := 1, name := "a", timestamp := 0, raw := [], thumbnail := [], preview := [] },
        { id := 3, name := "b", timestamp := 0, raw := [], thumbnail := [], preview := [] }]
    nextId := 4
    selected := some 1 }

theorem witness_ImageStoreKeepsIds :
    StoreInv twoImages ∧ (∃ store, renameImage 1 "c" twoImages = .ok store) ∧
      (∃ store, removeImage 1 twoImages = .ok store) ∧ ∃ store, selectImage 0 twoImages = .ok store :=
  ⟨⟨by decide, by decide, by decide, by decide, fun i hi => by cases hi; decide⟩, ⟨_, rfl⟩, ⟨_, rfl⟩, _, rfl⟩

/-- A device that shows a RawFrame of zeros and answers in pieces of 1, 300 and all the rest. -/
def zeroDevice : ReferenceDevice := { frame := List.replicate 1024 0, pending := [], pieces := [1, 1, 300] }

/-- Connected, with a START and 1024 POLLs to come. -/
def startAndPolls : State :=
  { stateAt .idle true 0 0 with
    host := .command (encode .start) :: List.replicate 1024 (.command (encode .poll)) }

theorem witness_ReferenceCaptureCompletes :
    zeroDevice.wf ∧ (∀ n ∈ zeroDevice.pieces, 1 ≤ n) ∧ startAndPolls.conn = true ∧
      startAndPolls.link.handle.isSome = true ∧ startAndPolls.st ≠ .capturing ∧ startAndPolls.engine = none ∧
      startAndPolls.host = .command (encode .start) :: List.replicate 1024 (.command (encode .poll)) :=
  ⟨List.length_replicate, by decide, rfl, rfl, by decide, rfl, rfl⟩

end Sys2Proof.Tests
end

/-! The parameters of R12 through every command and every step (assumption log 8). -/

namespace Sys2Proof.Machine

/-! ### The commands -/

@[simp] theorem connectPort_params (p : Nat) (s : State) : (connectPort p s).params = s.params := by
  obtain ⟨-, h⟩ | ⟨-, -, h⟩ | ⟨-, -, h⟩ | ⟨-, -, h⟩ := connectPort_cases p s <;> simp [h]

@[simp] theorem disconnectPort_params (s : State) : (disconnectPort s).params = s.params := by
  obtain ⟨-, h⟩ | ⟨-, h⟩ := disconnectPort_cases s <;> simp [h]

@[simp] theorem startCapture_params (s : State) : (startCapture s).params = s.params := by
  obtain ⟨-, h⟩ | ⟨-, -, -, h⟩ | ⟨-, -, _, _, -, h⟩ | ⟨-, -, -, h⟩ := startCapture_cases s <;> simp [h]

@[simp] theorem pollOnce_params (s : State) : (pollOnce s).params = s.params := by
  obtain ⟨-, h⟩ | ⟨-, -, -, h⟩ | ⟨-, -, -, h⟩ | ⟨-, -, -, h⟩ | ⟨-, -, -, h⟩ := pollOnce_cases s <;> simp [h]

/-- No instruction writes THUMB_ROW_ORDER or START_WHILE_CAPTURING (R12). -/
theorem exec_params {i : Instr} {s t : State} (h : exec i s = .next t) : t.params = s.params := by
  cases i with
  | connect port => cases h; exact connectPort_params port s
  | disconnect => cases h; exact disconnectPort_params s
  | start => cases h; exact startCapture_params s
  | poll => cases h; exact pollOnce_params s
  | repack => cases h; exact repack_params s
  | colorize => cases h; exact colorize_params s
  | upscale => cases h; exact upscale_params s

/-! ### The step -/

/-- Settles O46: a step runs one instruction, waits, resets the block or answers an illegal word, and none of these
writes the parameters. -/
theorem stepKeepsParameters : Obligations.StepKeepsParameters := by
  intro s t h
  obtain ⟨w, i, -, -, hexec⟩ | ⟨-, -, rfl⟩ | ⟨rest, -, -, rfl⟩ | ⟨w, rest, i, -, -, -, hexec⟩ |
    ⟨w, rest, e, -, -, -, rfl⟩ := step_cases h
  case inl => rw [exec_params hexec, takeEngineWord_params]
  case inr.inl => rfl
  case inr.inr.inl => rw [resetBlock_params, takeHostEvent_params]
  case inr.inr.inr.inl => rw [exec_params hexec, takeHostEvent_params]
  case inr.inr.inr.inr => rw [illegalCommand_params, takeHostEvent_params]

end Sys2Proof.Machine

/-! What a step is made of, the invariants of 10_state.md R23, R25, R30 and R34 through every step, and the handoff
of R131: each invariant is kept by every part of a step, and one lemma carries that over to the step. -/

namespace Sys2Proof.Machine

/-! ### The parts of a step -/

/-- Every part of a step keeps `P`: a word leaving the engine port, the host's next event being taken, each of the
seven operations, a reset, and the answer to an illegal word. -/
structure StepClosed (P : State → Prop) : Prop where
  engineWord : ∀ {s}, P s → P (takeEngineWord s)
  hostEvent : ∀ {s e rest}, s.host = e :: rest → P s → P (takeHostEvent rest s)
  connect : ∀ {s} p, P s → P (connectPort p s)
  disconnect : ∀ {s}, P s → P (disconnectPort s)
  start : ∀ {s}, P s → P (startCapture s)
  poll : ∀ {s}, P s → P (pollOnce s)
  repack : ∀ {s}, P s → P (repack s)
  colorize : ∀ {s}, P s → P (colorize s)
  upscale : ∀ {s}, P s → P (upscale s)
  reset : ∀ {s}, P s → P (resetBlock s)
  illegal : ∀ {s}, P s → P (illegalCommand s)

theorem StepClosed.of_exec {P : State → Prop} (hP : StepClosed P) {i : Instr} {s t : State} (hs : P s)
    (h : exec i s = .next t) : P t := by
  cases i with
  | connect p => cases h; exact hP.connect p hs
  | disconnect => cases h; exact hP.disconnect hs
  | start => cases h; exact hP.start hs
  | poll => cases h; exact hP.poll hs
  | repack => cases h; exact hP.repack hs
  | colorize => cases h; exact hP.colorize hs
  | upscale => cases h; exact hP.upscale hs

/-- What every part of a step keeps, the step keeps (R20). -/
theorem StepClosed.of_step {P : State → Prop} (hP : StepClosed P) {s t : State} (hs : P s)
    (h : step s = .next t) : P t := by
  obtain ⟨w, i, -, -, hexec⟩ | ⟨-, -, rfl⟩ | ⟨rest, -, hhost, rfl⟩ | ⟨w, rest, i, -, hhost, -, hexec⟩ |
    ⟨w, rest, e, -, hhost, -, rfl⟩ := step_cases h
  · exact hP.of_exec (hP.engineWord hs) hexec
  · exact hs
  · exact hP.reset (hP.hostEvent hhost hs)
  · exact hP.of_exec (hP.hostEvent hhost hs) hexec
  · exact hP.illegal (hP.hostEvent hhost hs)

/-! ### The invariants (a) to (h) of R30 -/

/-- R30 speaks of ST, CONN, BR and RC only. -/
theorem CounterInv.of_registers {s t : State} (h : CounterInv s) (hst : t.st = s.st) (hconn : t.conn = s.conn)
    (hbr : t.br = s.br) (hrc : t.rc = s.rc) : CounterInv t where
  br_le := hbr ▸ h.br_le
  done_iff := hst ▸ hbr ▸ h.done_iff
  rc_le := hrc ▸ h.rc_le
  timedOut_iff := hst ▸ hrc ▸ h.timedOut_iff
  idle_zero := hst ▸ hbr ▸ hrc ▸ h.idle_zero
  capturing_lt := hst ▸ hbr ▸ hrc ▸ h.capturing_lt
  done_rc := hst ▸ hrc ▸ h.done_rc
  timedOut_br := hst ▸ hbr ▸ h.timedOut_br
  disconnected_idle := hst ▸ hconn ▸ h.disconnected_idle

/-! What R30 asks in each of the four states. -/

theorem counterInv_of_idle {s : State} (hst : s.st = .idle) (hbr : s.br = 0) (hrc : s.rc = 0) : CounterInv s := by
  constructor <;> simp [hst, hbr, hrc]

theorem counterInv_of_capturing {s : State} (hst : s.st = .capturing) (hconn : s.conn = true)
    (hbr : s.br.toNat ≤ 1023) (hrc : s.rc.toNat ≤ 99) : CounterInv s where
  br_le := by omega
  done_iff := by simp only [hst, reduceCtorEq, false_iff]; omega
  rc_le := by omega
  timedOut_iff := by simp only [hst, reduceCtorEq, iff_false]; omega
  idle_zero := by simp [hst]
  capturing_lt _ := ⟨hbr, hrc⟩
  done_rc := by simp [hst]
  timedOut_br := by simp [hst]
  disconnected_idle := by simp [hconn]

theorem counterInv_of_done {s : State} (hst : s.st = .done) (hconn : s.conn = true)
    (hbr : s.br.toNat = 1024) (hrc : s.rc = 0) : CounterInv s := by
  constructor <;> simp [hst, hconn, hbr, hrc]

theorem counterInv_of_timedOut {s : State} (hst : s.st = .timedOut) (hconn : s.conn = true)
    (hbr : s.br.toNat ≤ 1023) (hrc : s.rc.toNat = 100) : CounterInv s where
  br_le := by omega
  done_iff := by simp only [hst, reduceCtorEq, false_iff]; omega
  rc_le := by omega
  timedOut_iff := by simp [hst, hrc]
  idle_zero := by simp [hst]
  capturing_lt := by simp [hst]
  done_rc := by simp [hst]
  timedOut_br _ := hbr
  disconnected_idle := by simp [hconn]

/-- (h), read the other way: a capture has a connection. -/
theorem CounterInv.conn_of_capturing {s : State} (h : CounterInv s) (hst : s.st = .capturing) : s.conn = true := by
  by_contra hc
  have := h.disconnected_idle (by simpa using hc)
  simp [hst] at this

theorem CounterInv.connectPort {s : State} (h : CounterInv s) (p : Nat) : CounterInv (connectPort p s) := by
  obtain ⟨-, e⟩ | ⟨-, -, e⟩ | ⟨-, -, e⟩ | ⟨hc, -, e⟩ := connectPort_cases p s <;> rw [e]
  · exact h.of_registers rfl rfl rfl rfl
  · exact h.of_registers rfl rfl rfl rfl
  · exact h.of_registers rfl rfl rfl rfl
  · have hidle := h.disconnected_idle hc
    obtain ⟨hbr, hrc⟩ := h.idle_zero hidle
    exact counterInv_of_idle hidle hbr hrc

theorem CounterInv.disconnectPort {s : State} (h : CounterInv s) : CounterInv (disconnectPort s) := by
  obtain ⟨-, e⟩ | ⟨-, e⟩ := disconnectPort_cases s <;> rw [e]
  · exact counterInv_of_idle rfl rfl rfl
  · exact h.of_registers rfl rfl rfl rfl

theorem CounterInv.startCapture {s : State} (h : CounterInv s) : CounterInv (startCapture s) := by
  obtain ⟨-, e⟩ | ⟨-, -, -, e⟩ | ⟨-, -, _, _, -, e⟩ | ⟨hc, -, -, e⟩ := startCapture_cases s <;> rw [e]
  · exact h.of_registers rfl rfl rfl rfl
  · exact counterInv_of_idle rfl rfl rfl
  · exact counterInv_of_idle rfl rfl rfl
  · exact counterInv_of_capturing rfl hc (by simp) (by simp)

theorem CounterInv.pollOnce {s : State} (h : CounterInv s) : CounterInv (pollOnce s) := by
  have hconn := h.conn_of_capturing
  have hlt := h.capturing_lt
  have hle := acceptBytes_br_toNat (readBytes 256 s) (linkRead 256 s) h.br_le
  have hroom := copyCount_le_room (readBytes 256 s) (linkRead 256 s).br
  obtain ⟨-, e⟩ | ⟨hst, -, hbr, e⟩ | ⟨hst, -, hbr, e⟩ | ⟨hst, -, hrc, e⟩ | ⟨hst, -, hrc, e⟩ := pollOnce_cases s <;>
    rw [e]
  · exact h.of_registers rfl rfl rfl rfl
  · exact counterInv_of_done rfl (hconn hst) hbr rfl
  · obtain ⟨hlt, -⟩ := hlt hst
    exact counterInv_of_capturing hst (hconn hst) (by simp only [respond_br, linkRead_br] at *; omega) (by simp)
  · exact counterInv_of_timedOut rfl (hconn hst) (hlt hst).1 hrc
  · obtain ⟨hbr, hrc99⟩ := hlt hst
    refine counterInv_of_capturing hst (hconn hst) hbr ?_
    show (s.rc + 1).toNat ≤ 99
    bv_omega

theorem counterInv_stepClosed : StepClosed CounterInv where
  engineWord h := h.of_registers rfl rfl rfl rfl
  hostEvent _ h := h.of_registers rfl rfl rfl rfl
  connect p h := h.connectPort p
  disconnect h := h.disconnectPort
  start h := h.startCapture
  poll h := h.pollOnce
  repack h := h.of_registers rfl rfl rfl rfl
  colorize h := h.of_registers rfl rfl rfl rfl
  upscale h := h.of_registers rfl rfl rfl rfl
  reset _ := counterInv_of_idle rfl rfl rfl
  illegal h := h.of_registers rfl rfl rfl rfl

/-- Settles O40: every part of a step keeps R30. -/
theorem stepKeepsCounters : Obligations.StepKeepsCounters :=
  fun _ _ hs h => counterInv_stepClosed.of_step hs h

/-! ### The handle and CONN (R25, R109) -/

theorem LinkInv.of_handle {s t : State} (h : LinkInv s) (hhandle : t.link.handle = s.link.handle)
    (hconn : t.conn = s.conn) : LinkInv t where
  handle_iff := by rw [hhandle, hconn, h.handle_iff]
  configured := by rw [hhandle]; exact h.configured

theorem linkInv_of_none {s : State} (hhandle : s.link.handle = none) (hconn : s.conn = false) : LinkInv s where
  handle_iff := by rw [hhandle, hconn]; rfl
  configured := by simp [hhandle]

theorem linkInv_of_some {s : State} {p : Nat}
    (hhandle : s.link.handle = some { port := p, line := Config.lineConfig }) (hconn : s.conn = true) :
    LinkInv s where
  handle_iff := by rw [hhandle, hconn]; rfl
  configured := by simp [hhandle]

theorem LinkInv.connectPort {s : State} (h : LinkInv s) (p : Nat) : LinkInv (connectPort p s) := by
  obtain ⟨-, e⟩ | ⟨hc, ha, e⟩ | ⟨hc, ha, e⟩ | ⟨-, ha, e⟩ := connectPort_cases p s <;> rw [e]
  · exact h.of_handle rfl rfl
  · exact linkInv_of_none (by simp [ha]) hc
  · exact linkInv_of_none (by simp [ha]) hc
  · exact linkInv_of_some (p := p) (by simp [ha]) rfl

theorem LinkInv.disconnectPort {s : State} (h : LinkInv s) : LinkInv (disconnectPort s) := by
  obtain ⟨-, e⟩ | ⟨-, e⟩ := disconnectPort_cases s <;> rw [e]
  · exact linkInv_of_none rfl rfl
  · exact h.of_handle rfl rfl

/-- START writes to the link it holds and never closes it (R121 to R124). -/
theorem startCapture_handle (s : State) :
    (startCapture s).link.handle = s.link.handle ∧ (startCapture s).conn = s.conn := by
  obtain ⟨-, e⟩ | ⟨-, -, -, e⟩ | ⟨-, -, _, _, -, e⟩ | ⟨-, -, -, e⟩ := startCapture_cases s <;> simp [e]

/-- POLL reads the link and never closes it (R125). -/
theorem pollOnce_handle (s : State) :
    (pollOnce s).link.handle = s.link.handle ∧ (pollOnce s).conn = s.conn := by
  obtain ⟨-, e⟩ | ⟨-, -, -, e⟩ | ⟨-, -, -, e⟩ | ⟨-, -, -, e⟩ | ⟨-, -, -, e⟩ := pollOnce_cases s <;> simp [e]

theorem linkInv_stepClosed : StepClosed LinkInv where
  engineWord h := h.of_handle rfl rfl
  hostEvent _ h := h.of_handle rfl rfl
  connect p h := h.connectPort p
  disconnect h := h.disconnectPort
  start h := h.of_handle (startCapture_handle _).1 (startCapture_handle _).2
  poll h := h.of_handle (pollOnce_handle _).1 (pollOnce_handle _).2
  repack h := h.of_handle rfl rfl
  colorize h := h.of_handle rfl rfl
  upscale h := h.of_handle rfl rfl
  reset _ := linkInv_of_none rfl rfl
  illegal h := h.of_handle rfl rfl

/-- Settles O44: only CONNECT, DISCONNECT and reset open or close the link, and each writes CONN with it. -/
theorem stepKeepsLink : Obligations.StepKeepsLink :=
  fun _ _ hs h => linkInv_stepClosed.of_step hs h

/-! ### What the buffers hold (R23, R34) -/

/-- A fill lists every address that was listed before. -/
theorem lookup_memFill_isSome {s : State} {b n a : Nat} {f : Nat → Byte} (h : (s.mem.lookup a).isSome) :
    ((memFill b n f s).mem.lookup a).isSome := by
  rw [memFill_mem, lookup_write, List.length_map, List.length_range]
  split
  · simp; omega
  · exact h

/-- A fill with the bytes that are there leaves every byte as it was. -/
theorem byteAt_memFill_same {s : State} {b n : Nat} {f : Nat → Byte} (h : ∀ i < n, byteAt s (b + i) = f i) (a : Nat) :
    byteAt (memFill b n f s) a = byteAt s a := by
  by_cases ha : b ≤ a ∧ a < b + n
  · obtain ⟨i, rfl⟩ := Nat.exists_eq_add_of_le ha.1
    rw [byteAt_memFill_inside (by omega), h i (by omega)]
  · exact byteAt_memFill_outside (by omega)

/-- The buffers of a state that lists no fewer bytes and, in Done, holds the same ones. -/
theorem BufferInv.of_sameBytes {s t : State} (h : BufferInv s) (hst : t.st = s.st) (hbr : t.br = s.br)
    (hparams : t.params = s.params) (hlisted : ∀ a, (s.mem.lookup a).isSome → (t.mem.lookup a).isSome)
    (hbytes : s.st = .done → ∀ a, byteAt t a = byteAt s a) : BufferInv t where
  received ht i hi := hlisted _ (h.received (hst ▸ ht) i (hbr ▸ hi))
  specified ht a ha := hlisted _ (h.specified (hst ▸ ht) a ha)
  canon ht i hi := by
    have hd : s.st = .done := hst ▸ ht
    rw [hbytes hd, h.canon hd i hi]
    exact repackByte_congr (fun _ _ => (hbytes hd _).symm) hi
  thumb ht i hi := by
    have hd : s.st = .done := hst ▸ ht
    rw [hbytes hd, h.thumb hd i hi, hparams]
    exact colorizeByte_congr (fun _ _ => (hbytes hd _).symm) hi
  preview ht i hi := by
    have hd : s.st = .done := hst ▸ ht
    rw [hbytes hd, h.preview hd i hi]
    exact upscaleByte_congr (fun _ _ => (hbytes hd _).symm) hi

/-- R23 and R34 speak of ST, BR, the buffers and the parameters only. -/
theorem BufferInv.of_memory {s t : State} (h : BufferInv s) (hst : t.st = s.st) (hbr : t.br = s.br)
    (hparams : t.params = s.params) (hmem : t.mem = s.mem) (hepoch : t.epoch = s.epoch) : BufferInv t :=
  h.of_sameBytes hst hbr hparams (fun _ ha => hmem ▸ ha) fun _ a => by rw [byteAt, byteAt, hmem, hepoch]

/-- An engine word in Done computes the bytes that are there already; before Done it only lists more of them. -/
theorem BufferInv.memFill {s : State} (h : BufferInv s) {b n : Nat} {f : Nat → Byte}
    (hf : s.st = .done → ∀ i < n, byteAt s (b + i) = f i) : BufferInv (memFill b n f s) :=
  h.of_sameBytes rfl rfl rfl (fun _ => lookup_memFill_isSome) fun hd => byteAt_memFill_same (hf hd)

/-- Outside Capturing and Done nothing is asked of the buffers. -/
theorem bufferInv_of_idle_or_timedOut {s : State} (h : s.st = .idle ∨ s.st = .timedOut) : BufferInv s := by
  constructor <;> obtain h | h := h <;> simp [h]

theorem bufferInv_of_capturing {s : State} (hst : s.st = .capturing)
    (hraw : ∀ i < s.br.toNat, (s.mem.lookup (Config.rawBase + i)).isSome) : BufferInv s := by
  constructor <;> simp only [hst, reduceCtorEq, false_implies]
  exact fun _ => hraw

/-- The decode of a fully received RAW specifies all four buffers (R127, R172). -/
theorem lookup_runDecode_isSome {s : State} (hraw : ∀ i < 1024, (s.mem.lookup (Config.rawBase + i)).isSome) {a : Nat}
    (ha : mapped a = true) : ((runDecode s).mem.lookup a).isSome := by
  obtain hlow | ⟨hlo, hhi⟩ | ⟨hlo, hhi⟩ := (mapped_iff a).1 ha
  · by_cases hr : a < 1024
    · rw [lookup_runDecode_raw s hr, ← Nat.zero_add a]
      exact hraw a hr
    · obtain ⟨i, rfl⟩ := Nat.exists_eq_add_of_le (Nat.le_of_not_lt hr)
      exact Option.isSome_of_eq_some (lookup_runDecode_canon s (by omega))
  · obtain ⟨i, rfl⟩ := Nat.exists_eq_add_of_le hlo
    exact Option.isSome_of_eq_some (lookup_runDecode_thumb s (by omega))
  · obtain ⟨i, rfl⟩ := Nat.exists_eq_add_of_le hlo
    exact Option.isSome_of_eq_some (lookup_runDecode_preview s (by omega))

/-- Completion leaves the decoding of the received RAW in the other three buffers (R127, R131). -/
theorem bufferInv_complete {s : State} (hraw : ∀ i < 1024, (s.mem.lookup (Config.rawBase + i)).isSome) :
    BufferInv (complete s) where
  received h := by cases h
  specified _ _ ha := lookup_runDecode_isSome hraw ha
  canon _ i hi :=
    (byteAt_runDecode_canon s hi).trans
      (repackByte_congr (fun j hj => (byteAt_runDecode_raw s (by simpa using hj)).symm) hi)
  thumb _ i hi :=
    (byteAt_runDecode_thumb s hi).trans
      (colorizeByte_congr (fun j hj => (byteAt_runDecode_canon s hj).symm) hi)
  preview _ i hi :=
    (byteAt_runDecode_preview s hi).trans
      (upscaleByte_congr (fun j hj => (byteAt_runDecode_thumb s hj).symm) hi)

/-- After a copy the bytes received before and the copied ones are specified (R23, R126). -/
theorem lookup_acceptBytes_isSome {d : List Byte} {s : State} (hbr : s.br.toNat ≤ 1024)
    (hraw : ∀ i < s.br.toNat, (s.mem.lookup (Config.rawBase + i)).isSome) :
    ∀ i < (acceptBytes d s).br.toNat, ((acceptBytes d s).mem.lookup (Config.rawBase + i)).isSome := by
  intro i hi
  rw [acceptBytes_br_toNat d s hbr] at hi
  rw [lookup_acceptBytes, Config.rawBase, Nat.zero_add]
  have hlen := copyCount_le_length d s.br
  split
  · simp; omega
  · have := hraw i (by omega)
    rwa [Config.rawBase, Nat.zero_add] at this

theorem BufferInv.connectPort {s : State} (h : BufferInv s) (p : Nat) : BufferInv (connectPort p s) := by
  obtain ⟨-, e⟩ | ⟨-, -, e⟩ | ⟨-, -, e⟩ | ⟨-, -, e⟩ := connectPort_cases p s <;> rw [e] <;>
    exact h.of_memory rfl rfl rfl rfl rfl

theorem BufferInv.disconnectPort {s : State} (h : BufferInv s) : BufferInv (disconnectPort s) := by
  obtain ⟨-, e⟩ | ⟨-, e⟩ := disconnectPort_cases s <;> rw [e]
  · exact bufferInv_of_idle_or_timedOut (.inl rfl)
  · exact h.of_memory rfl rfl rfl rfl rfl

theorem BufferInv.startCapture {s : State} (h : BufferInv s) : BufferInv (startCapture s) := by
  obtain ⟨-, e⟩ | ⟨-, -, -, e⟩ | ⟨-, -, _, _, -, e⟩ | ⟨-, -, -, e⟩ := startCapture_cases s <;> rw [e]
  · exact h.of_memory rfl rfl rfl rfl rfl
  · exact bufferInv_of_idle_or_timedOut (.inl rfl)
  · exact bufferInv_of_idle_or_timedOut (.inl rfl)
  · exact bufferInv_of_capturing rfl (by simp)

theorem BufferInv.pollOnce {s : State} (h : BufferInv s) (hbr : s.br.toNat ≤ 1024) : BufferInv (pollOnce s) := by
  have hraw := fun hst => lookup_acceptBytes_isSome (d := readBytes 256 s) (s := linkRead 256 s) hbr (h.received hst)
  obtain ⟨-, e⟩ | ⟨hst, -, hfull, e⟩ | ⟨hst, -, -, e⟩ | ⟨-, -, -, e⟩ | ⟨hst, -, -, e⟩ := pollOnce_cases s <;> rw [e]
  · exact h.of_memory rfl rfl rfl rfl rfl
  · exact bufferInv_complete (hfull ▸ hraw hst)
  · exact bufferInv_of_capturing hst (hraw hst)
  · exact bufferInv_of_idle_or_timedOut (.inr rfl)
  · exact h.of_memory rfl rfl rfl rfl rfl

/-- BR ≤ 1024 is what the copy of POLL needs beside R23, so the two invariants go together. -/
theorem bufferInv_stepClosed : StepClosed fun s => CounterInv s ∧ BufferInv s where
  engineWord := fun ⟨hc, hb⟩ => ⟨counterInv_stepClosed.engineWord hc, hb.of_memory rfl rfl rfl rfl rfl⟩
  hostEvent hhost := fun ⟨hc, hb⟩ => ⟨counterInv_stepClosed.hostEvent hhost hc, hb.of_memory rfl rfl rfl rfl rfl⟩
  connect p := fun ⟨hc, hb⟩ => ⟨hc.connectPort p, hb.connectPort p⟩
  disconnect := fun ⟨hc, hb⟩ => ⟨hc.disconnectPort, hb.disconnectPort⟩
  start := fun ⟨hc, hb⟩ => ⟨hc.startCapture, hb.startCapture⟩
  poll := fun ⟨hc, hb⟩ => ⟨hc.pollOnce, hb.pollOnce hc.br_le⟩
  repack := fun ⟨hc, hb⟩ => ⟨counterInv_stepClosed.repack hc, hb.memFill hb.canon⟩
  colorize := fun ⟨hc, hb⟩ => ⟨counterInv_stepClosed.colorize hc, hb.memFill hb.thumb⟩
  upscale := fun ⟨hc, hb⟩ => ⟨counterInv_stepClosed.upscale hc, hb.memFill hb.preview⟩
  reset := fun ⟨hc, _⟩ => ⟨counterInv_stepClosed.reset hc, bufferInv_of_idle_or_timedOut (.inl rfl)⟩
  illegal := fun ⟨hc, hb⟩ => ⟨counterInv_stepClosed.illegal hc, hb.of_memory rfl rfl rfl rfl rfl⟩

/-- Settles O42: completion decodes a RAW all of whose bytes are specified, and an engine word run in Done computes
again what is there. -/
theorem stepKeepsBuffers : Obligations.StepKeepsBuffers := by
  intro s t hc hb h
  obtain ⟨-, hb'⟩ := bufferInv_stepClosed.of_step ⟨hc, hb⟩ h
  exact hb'


/-! ### The handoff (R30 (i), R131, R138 (e)) -/

theorem imageHandoff_iff (s : State) : imageHandoff s = true ↔ s.resp = 0x3 := decide_eq_true_iff

/-- Of the host's operations only a completing POLL answers EV_DONE (R131). -/
theorem exec_handoff {i : Instr} {s t : State} (hport : i.port = .host) (h : exec i s = .next t)
    (hd : imageHandoff t = true) :
    i = .poll ∧ s.st = .capturing ∧ (acceptBytes (readBytes 256 s) (linkRead 256 s)).br.toNat = 1024 ∧
      t = complete (acceptBytes (readBytes 256 s) (linkRead 256 s)) := by
  rw [imageHandoff_iff] at hd
  cases i with
  | connect p =>
    cases h
    obtain ⟨-, e⟩ | ⟨-, -, e⟩ | ⟨-, -, e⟩ | ⟨-, -, e⟩ := connectPort_cases p s <;> simp [e, responseCode] at hd
  | disconnect =>
    cases h
    obtain ⟨-, e⟩ | ⟨-, e⟩ := disconnectPort_cases s <;> simp [e, responseCode] at hd
  | start =>
    cases h
    obtain ⟨-, e⟩ | ⟨-, -, -, e⟩ | ⟨-, -, _, _, -, e⟩ | ⟨-, -, -, e⟩ := startCapture_cases s <;>
      simp [e, responseCode] at hd
  | poll =>
    cases h
    obtain ⟨-, e⟩ | ⟨hst, -, hbr, e⟩ | ⟨-, -, -, e⟩ | ⟨-, -, -, e⟩ | ⟨-, -, -, e⟩ := pollOnce_cases s
    case inr.inl => exact ⟨rfl, hst, hbr, e⟩
    all_goals simp [e, responseCode] at hd
  | repack | colorize | upscale => cases hport

/-! Which operations a port can run. -/

theorem port_of_decodeEngine {w : Word} {i : Instr} (h : decode .engine w = .ok i) : i.port = .engine := by
  simp only [decode, decodeEngine] at h
  split_ifs at h <;> cases h <;> rfl

theorem port_of_decodeHost {w : Word} {i : Instr} (h : decode .host w = .ok i) : i.port = .host := by
  simp only [decode, decodeHost] at h
  split_ifs at h
  case neg => split at h <;> cases h
  all_goals cases h; rfl

/-! The host's coming events through the operations. -/

@[simp] theorem connectPort_host (p : Nat) (s : State) : (connectPort p s).host = s.host := by
  obtain ⟨-, h⟩ | ⟨-, -, h⟩ | ⟨-, -, h⟩ | ⟨-, -, h⟩ := connectPort_cases p s <;> simp [h]

@[simp] theorem disconnectPort_host (s : State) : (disconnectPort s).host = s.host := by
  obtain ⟨-, h⟩ | ⟨-, h⟩ := disconnectPort_cases s <;> simp [h]

@[simp] theorem startCapture_host (s : State) : (startCapture s).host = s.host := by
  obtain ⟨-, h⟩ | ⟨-, -, -, h⟩ | ⟨-, -, _, _, -, h⟩ | ⟨-, -, -, h⟩ := startCapture_cases s <;> simp [h]

@[simp] theorem pollOnce_host (s : State) : (pollOnce s).host = s.host := by
  obtain ⟨-, h⟩ | ⟨-, -, -, h⟩ | ⟨-, -, -, h⟩ | ⟨-, -, -, h⟩ | ⟨-, -, -, h⟩ := pollOnce_cases s <;> simp [h]

/-- The host issues no further START. -/
def NoStart (s : State) : Prop := ∀ w, .command w ∈ s.host → decode .host w ≠ .ok .start

theorem NoStart.of_host {s t : State} (h : NoStart s) (hhost : t.host = s.host) : NoStart t :=
  fun w hw => h w (hhost ▸ hw)

/-- A step takes the host's first event at most, and adds none. -/
theorem noStart_stepClosed : StepClosed NoStart where
  engineWord h := h.of_host rfl
  hostEvent hhost h := fun w hw => h w (hhost ▸ List.mem_cons_of_mem _ hw)
  connect p h := h.of_host (connectPort_host p _)
  disconnect h := h.of_host (disconnectPort_host _)
  start h := h.of_host (startCapture_host _)
  poll h := h.of_host (pollOnce_host _)
  repack h := h.of_host rfl
  colorize h := h.of_host rfl
  upscale h := h.of_host rfl
  reset h := h.of_host rfl
  illegal h := h.of_host rfl

/-- Only START begins a capture (R121). -/
theorem exec_not_capturing {i : Instr} {s t : State} (hi : i ≠ .start) (hst : s.st ≠ .capturing)
    (h : exec i s = .next t) : t.st ≠ .capturing := by
  cases i with
  | connect p =>
    cases h
    obtain ⟨-, e⟩ | ⟨-, -, e⟩ | ⟨-, -, e⟩ | ⟨-, -, e⟩ := connectPort_cases p s <;> simpa [e] using hst
  | disconnect =>
    cases h
    obtain ⟨-, e⟩ | ⟨-, e⟩ := disconnectPort_cases s <;> simp [e, hst]
  | start => exact absurd rfl hi
  | poll =>
    have e : pollOnce s = respond .evNoop s := if_neg hst
    cases h
    rw [e]
    exact hst
  | repack | colorize | upscale => cases h; exact hst

theorem step_not_capturing {s t : State} (hn : NoStart s) (hst : s.st ≠ .capturing) (h : step s = .next t) :
    t.st ≠ .capturing := by
  obtain ⟨w, i, -, hi, hexec⟩ | ⟨-, -, rfl⟩ | ⟨rest, -, -, rfl⟩ | ⟨w, rest, i, -, hhost, hi, hexec⟩ |
    ⟨w, rest, e, -, -, -, rfl⟩ := step_cases h
  case inl =>
    refine exec_not_capturing (s := takeEngineWord s) ?_ hst hexec
    rintro rfl
    cases port_of_decodeEngine hi
  case inr.inl => exact hst
  case inr.inr.inl => simp
  case inr.inr.inr.inl =>
    refine exec_not_capturing (s := takeHostEvent rest s) ?_ hst hexec
    rintro rfl
    exact hn w (by simp [hhost]) hi
  case inr.inr.inr.inr => exact hst

/-! Counting the answers EV_DONE. -/

/-- A step that answers a host word with EV_DONE takes a host word and gives a state with that response. -/
theorem signalsHandoff_next {s : State} (h : signalsHandoff s = true) :
    ∃ w rest t, s.engine = none ∧ s.host = .command w :: rest ∧ step s = .next t ∧ imageHandoff t = true := by
  unfold signalsHandoff at h
  split at h
  · rename_i w rest hengine hhost
    split at h
    · rename_i t hstep
      exact ⟨w, rest, t, hengine, hhost, hstep, h⟩
    all_goals cases h
  all_goals cases h

/-- It ends the capture under way (R131). -/
theorem signalsHandoff_ends_capture {s : State} (h : signalsHandoff s = true) :
    s.st = .capturing ∧ ∃ t, step s = .next t ∧ t.st = .done := by
  obtain ⟨w, rest, t, hengine, hhost, hstep, hd⟩ := signalsHandoff_next h
  obtain ⟨w', i, hw, -, -⟩ | ⟨-, hh, -⟩ | ⟨rest', -, hh, -⟩ | ⟨w', rest', i, -, -, hi, hexec⟩ |
    ⟨w', rest', e, -, -, -, ht⟩ := step_cases hstep
  case inl => simp [hengine] at hw
  case inr.inl => simp [hhost] at hh
  case inr.inr.inl => simp [hhost] at hh
  case inr.inr.inr.inl =>
    obtain ⟨-, hst, -, ht⟩ := exec_handoff (port_of_decodeHost hi) hexec hd
    exact ⟨hst, t, hstep, by rw [ht, complete_st]⟩
  case inr.inr.inr.inr => simp [imageHandoff_iff, ht] at hd

/-- One more step: its own answer and those of the steps after it, or nothing where it gives no next state. -/
theorem handoffCount_succ (n : Nat) (s : State) :
    (∃ t, step s = .next t ∧ handoffCount (n + 1) s = (signalsHandoff s).toNat + handoffCount n t) ∨
      handoffCount (n + 1) s = 0 := by
  cases hstep : step s with
  | next t => exact .inl ⟨t, rfl, by simp [handoffCount, hstep]⟩
  | fault r => cases r
  | refused r =>
    have hno : signalsHandoff s = false := by
      by_contra hs
      obtain ⟨-, t, ht, -⟩ := signalsHandoff_ends_capture (by simpa using hs)
      simp [hstep] at ht
    exact .inr (by simp [handoffCount, hstep, hno])

theorem handoffCount_of_not_capturing (n : Nat) {s : State} (hn : NoStart s) (hst : s.st ≠ .capturing) :
    handoffCount n s = 0 := by
  induction n generalizing s with
  | zero => rfl
  | succ n ih =>
    obtain ⟨t, hstep, hcount⟩ | hcount := handoffCount_succ n s
    · have hno : signalsHandoff s = false := by
        by_contra hs
        exact hst (signalsHandoff_ends_capture (by simpa using hs)).1
      rw [hcount, hno, ih (noStart_stepClosed.of_step hn hstep) (step_not_capturing hn hst hstep)]
      rfl
    · exact hcount

/-- After the one EV_DONE of a capture no capture is under way, so no other follows (R138 (e)). -/
theorem handoffCount_le_one (n : Nat) {s : State} (hn : NoStart s) : handoffCount n s ≤ 1 := by
  induction n generalizing s with
  | zero => exact Nat.zero_le 1
  | succ n ih =>
    obtain ⟨t, hstep, hcount⟩ | hcount := handoffCount_succ n s
    · have hnt := noStart_stepClosed.of_step hn hstep
      rw [hcount]
      cases hs : signalsHandoff s with
      | false => simpa using ih hnt
      | true =>
        obtain ⟨-, u, hu, hdone⟩ := signalsHandoff_ends_capture hs
        obtain rfl : t = u := by simpa [hstep] using hu
        simp [handoffCount_of_not_capturing n hnt (by simp [hdone])]
    · omega

/-- Settles O48: EV_DONE comes from the completing POLL alone, which ends the capture it needs. -/
theorem handoffOnlyAtCompletion : Obligations.HandoffOnlyAtCompletion := by
  refine ⟨fun i s t hinv hport h hd => ?_, fun s hn n => ?_⟩
  · obtain ⟨hi, hst, hbr, rfl⟩ := exec_handoff hport h hd
    exact ⟨hi, hst, by have := hinv.capturing_lt hst; omega, hbr, rfl⟩
  · exact ⟨handoffCount_le_one n hn, handoffCount_of_not_capturing n hn⟩

/-! ### Reset (R39, R230) -/

theorem readBuffer_of_not_done {s : State} (h : s.st ≠ .done) (a : BitVec 20) :
    readBuffer a s = .error .bufferNotReadable := by
  simp [readBuffer, outputValid, h]

/-- Settles O37: the registers compute, and outside Done every buffer read is refused (R54). -/
theorem resetRegisters : Obligations.ResetRegisters :=
  ⟨rfl, rfl, rfl, rfl, rfl, rfl, rfl, rfl, rfl, readBuffer_of_not_done (by decide)⟩

/-- Settles O39: after reset the block is Idle, so that no invariant asks anything of the buffers or the bytes
delivered. -/
theorem resetIsSound : Obligations.ResetIsSound where
  counters := counterInv_of_idle rfl rfl rfl
  memory := wf_nil
  buffers := bufferInv_of_idle_or_timedOut (.inl rfl)
  delivery := by constructor <;> simp [State.reset]
  link := linkInv_of_none rfl rfl
  response := rfl

/-! ### The registers as the host reads them (R28, R31) -/

/-- The three fields of STATUS do not overlap. -/
theorem statusWord_toNat (s : State) :
    (statusWord s).toNat = (stCode s.st).toNat + 4 * s.conn.toNat + 8 * (outputValid s).toNat := by
  unfold statusWord outputValid
  cases s.st <;> cases s.conn <;> rfl

/-- PG never exceeds its 7 bits (R28). -/
theorem progress_toNat {s : State} (h : s.br.toNat ≤ 1024) : (progress s).toNat = s.br.toNat * 100 / 1024 := by
  rw [progress, Config.frameBytes, BitVec.toNat_ofNat, Nat.mod_eq_of_lt (by omega)]

/-- Settles O51: STATUS field by field, the other registers by zero extension. -/
theorem registerReads : Obligations.RegisterReads := by
  intro s
  refine ⟨⟨_, rfl, statusWord_toNat s⟩, by simp [outputValid], ⟨_, rfl, ?_⟩, ⟨_, rfl, ?_⟩, ⟨_, rfl, ?_⟩, ⟨_, rfl, ?_⟩,
    ⟨_, rfl, rfl⟩, fun n hn => ?_⟩
  case refine_5 =>
    obtain ⟨k, rfl⟩ := Nat.exists_eq_add_of_le' hn
    rfl
  all_goals exact BitVec.toNat_setWidth_of_le (by decide)

/-- Settles O52: floor(BR * 100 / 1024) is 100 only from BR = 1024 on. -/
theorem progressReads : Obligations.ProgressReads := by
  intro s h
  refine ⟨progress_toNat h, ?_⟩
  rw [progress_toNat h]
  omega

/-! ### Unspecified bytes (R34; assumption log 6) -/

theorem byteAt_of_mem_nil {s : State} (h : s.mem = []) (a : Nat) : byteAt s a = Config.unspecifiedByte s.epoch a := by
  rw [byteAt, h]
  rfl

/-- A START with a connection forgets the buffers, whatever comes of its write (R34, R121, R123, R124). -/
theorem startCapture_forgets {s : State} (hc : s.conn = true) :
    (startCapture s).mem = [] ∧ (startCapture s).epoch = s.epoch + 1 := by
  obtain ⟨hno, -⟩ | ⟨-, -, -, e⟩ | ⟨-, -, _, _, -, e⟩ | ⟨-, -, -, e⟩ := startCapture_cases s
  · simp [hc] at hno
  all_goals simp [e]

theorem disconnectPort_forgets {s : State} (hc : s.conn = true) :
    (disconnectPort s).mem = [] ∧ (disconnectPort s).epoch = s.epoch + 1 := by
  obtain ⟨-, e⟩ | ⟨hno, -⟩ := disconnectPort_cases s
  · simp [e]
  · simp [hc] at hno

/-- The 100th consecutive empty POLL times out (R129). -/
theorem pollOnce_of_last_empty {s : State} (hst : s.st = .capturing) (hread : readBytes 256 s = [])
    (hrc : s.rc.toNat = 99) : pollOnce s = timeOut { linkRead 256 s with rc := s.rc + 1 } := by
  rw [pollOnce_of_empty hst (by simp [hread])]
  refine if_pos ?_
  show (s.rc + 1).toNat = 100
  bv_omega

/-- A next state that lists no byte, one epoch on, holds the free bytes of that epoch. -/
theorem unspecified_of_forgets {s t : State} (h : t.mem = [] ∧ t.epoch = s.epoch + 1) :
    t.epoch = s.epoch + 1 ∧ ∀ a, byteAt t a = Config.unspecifiedByte (s.epoch + 1) a := by
  obtain ⟨hmem, hepoch⟩ := h
  exact ⟨hepoch, fun a => by rw [byteAt_of_mem_nil hmem, hepoch]⟩

/-- Settles O54: each of the three unlists every byte and raises the epoch. -/
theorem unspecifiedBuffers : Obligations.UnspecifiedBuffers := by
  refine fun s => ⟨fun hc => ?_, fun hc => ?_, fun hst hread hrc => ?_⟩
  · exact ⟨_, rfl, unspecified_of_forgets (startCapture_forgets hc)⟩
  · exact ⟨_, rfl, unspecified_of_forgets (disconnectPort_forgets hc)⟩
  · refine ⟨_, rfl, unspecified_of_forgets ?_⟩
    rw [pollOnce_of_last_empty hst hread hrc]
    exact ⟨rfl, rfl⟩

end Sys2Proof.Machine

/-! The buffer space of 20_memory.md through every step: its canonical form, the bytes delivered to RAW, what the host
can read in Done, and the queue a purge leaves. -/

namespace Sys2Proof.Machine

/-! ### What CONNECT leaves of the buffers -/

@[simp] theorem connectPort_mem (p : Nat) (s : State) : (connectPort p s).mem = s.mem := by
  obtain ⟨-, e⟩ | ⟨-, -, e⟩ | ⟨-, -, e⟩ | ⟨-, -, e⟩ := connectPort_cases p s <;> simp [e]

@[simp] theorem connectPort_epoch (p : Nat) (s : State) : (connectPort p s).epoch = s.epoch := by
  obtain ⟨-, e⟩ | ⟨-, -, e⟩ | ⟨-, -, e⟩ | ⟨-, -, e⟩ := connectPort_cases p s <;> simp [e]

/-! ### The canonical form (R52; assumption log 6) -/

theorem wf_disconnectPort {s : State} (h : Memory.wf s.mem) : Memory.wf (disconnectPort s).mem := by
  obtain ⟨-, e⟩ | ⟨-, e⟩ := disconnectPort_cases s <;> rw [e]
  · exact wf_nil
  · exact h

theorem wf_startCapture {s : State} (h : Memory.wf s.mem) : Memory.wf (startCapture s).mem := by
  obtain ⟨-, e⟩ | ⟨-, -, -, e⟩ | ⟨-, -, _, _, -, e⟩ | ⟨-, -, -, e⟩ := startCapture_cases s <;> rw [e]
  · exact h
  all_goals exact wf_nil

theorem wf_pollOnce {s : State} (h : Memory.wf s.mem) : Memory.wf (pollOnce s).mem := by
  have haccept : Memory.wf (acceptBytes (readBytes 256 s) (linkRead 256 s)).mem := wf_acceptBytes h
  obtain ⟨-, e⟩ | ⟨-, -, -, e⟩ | ⟨-, -, -, e⟩ | ⟨-, -, -, e⟩ | ⟨-, -, -, e⟩ := pollOnce_cases s <;> rw [e]
  · exact h
  · exact wf_runDecode haccept
  · exact haccept
  · exact wf_nil
  · exact h

theorem wf_stepClosed : StepClosed fun s => Memory.wf s.mem where
  engineWord h := h
  hostEvent _ h := h
  connect p h := by rwa [connectPort_mem]
  disconnect := wf_disconnectPort
  start := wf_startCapture
  poll := wf_pollOnce
  repack := wf_repack
  colorize := wf_colorize
  upscale := wf_upscale
  reset _ := wf_nil
  illegal h := h

/-- Settles O41: POLL copies into RAW alone, each engine word fills one buffer of the map, and everything else keeps
the list or empties it. -/
theorem stepKeepsMemoryForm : Obligations.StepKeepsMemoryForm :=
  fun _ _ hs h => wf_stepClosed.of_step hs h

/-! ### The bytes delivered since the purge (R63; assumption log 5) -/

theorem deliveredBytes_linkRead (max : Nat) (s : State) :
    deliveredBytes (linkRead max s).link.log = deliveredBytes s.link.log ++ readBytes max s :=
  deliveredBytes_append _ _

/-- The token that follows a purge delivers nothing (R121). -/
theorem deliveredBytes_linkWrite_linkPurge (bytes : List Byte) (s : State) :
    deliveredBytes (linkWrite bytes (linkPurge s)).link.log = [] := by
  rw [linkWrite_link_log, deliveredBytes_append, linkPurge_link_log]
  exact deliveredBytes_append _ _

/-- R63 speaks of ST, BR, the bytes delivered, and the first BR bytes of RAW only. -/
theorem DeliveryInv.of_raw {s t : State} (h : DeliveryInv s) (hst : t.st = s.st) (hbr : t.br = s.br)
    (hlog : deliveredBytes t.link.log = deliveredBytes s.link.log)
    (hraw : ∀ i < s.br.toNat, t.mem.lookup (Config.rawBase + i) = s.mem.lookup (Config.rawBase + i)) :
    DeliveryInv t where
  capturing ht := by rw [hlog, hbr, h.capturing (hst ▸ ht)]
  done ht := by rw [hlog]; exact h.done (hst ▸ ht)
  stored ht i hi := by rw [hraw i (hbr ▸ hi), hlog, h.stored (hst ▸ ht) i (hbr ▸ hi)]

/-- A fill of CANON, THUMB or PREVIEW leaves RAW as it was (R52). -/
theorem DeliveryInv.memFill {s : State} (h : DeliveryInv s) (hle : s.br.toNat ≤ 1024) {b n : Nat} {f : Nat → Byte}
    (hb : 1024 ≤ b) : DeliveryInv (memFill b n f s) :=
  h.of_raw rfl rfl rfl fun i hi => lookup_fill_outside (.inl (by simp only [Config.rawBase]; omega))

/-! What R63 asks in each state. -/

theorem deliveryInv_of_idle_or_timedOut {s : State} (h : s.st = .idle ∨ s.st = .timedOut) : DeliveryInv s := by
  constructor <;> obtain h | h := h <;> simp [h]

theorem deliveryInv_of_capturing {s : State} (hst : s.st = .capturing)
    (hlen : (deliveredBytes s.link.log).length = s.br.toNat)
    (hraw : ∀ i < s.br.toNat, s.mem.lookup (Config.rawBase + i) = (deliveredBytes s.link.log)[i]?) :
    DeliveryInv s where
  capturing _ := hlen
  done hd := by simp [hst] at hd
  stored _ := hraw

theorem deliveryInv_of_done {s : State} (hst : s.st = .done) (hlen : 1024 ≤ (deliveredBytes s.link.log).length)
    (hraw : ∀ i < s.br.toNat, s.mem.lookup (Config.rawBase + i) = (deliveredBytes s.link.log)[i]?) :
    DeliveryInv s where
  capturing hc := by simp [hst] at hc
  done _ := hlen
  stored _ := hraw

/-- After a copy RAW holds the bytes delivered before and, behind them, the ones just read (R63, R126). -/
theorem DeliveryInv.lookup_delivered {s : State} (h : DeliveryInv s) (hle : s.br.toNat ≤ 1024)
    (hst : s.st = .capturing) (max : Nat) :
    ∀ i < (acceptBytes (readBytes max s) (linkRead max s)).br.toNat,
      (acceptBytes (readBytes max s) (linkRead max s)).mem.lookup (Config.rawBase + i) =
        (deliveredBytes (linkRead max s).link.log)[i]? := by
  intro i hi
  have hlen := h.capturing hst
  rw [acceptBytes_br_toNat _ (linkRead max s) hle, linkRead_br] at hi
  rw [lookup_acceptBytes, deliveredBytes_linkRead, linkRead_br, linkRead_mem]
  by_cases hold : i < s.br.toNat
  · rw [if_neg (by simp only [Config.rawBase]; omega), List.getElem?_append_left (by omega)]
    exact h.stored (.inl hst) i hold
  · rw [if_pos (by simp only [Config.rawBase]; omega), List.getElem?_append_right (by omega), hlen, Config.rawBase,
      Nat.zero_add]

/-- A copy that does not fill RAW takes every byte of the read (R125). -/
theorem copyCount_eq_length {d : List Byte} {br : BitVec 11} (h : br.toNat + copyCount d br < 1024) :
    copyCount d br = d.length := by
  unfold copyCount Config.frameBytes at *
  omega

theorem DeliveryInv.connectPort {s : State} (h : DeliveryInv s) (hc : CounterInv s) (p : Nat) :
    DeliveryInv (connectPort p s) := by
  obtain ⟨-, e⟩ | ⟨hconn, -, e⟩ | ⟨hconn, -, e⟩ | ⟨hconn, -, e⟩ := connectPort_cases p s <;> rw [e]
  · exact h.of_raw rfl rfl rfl fun _ _ => rfl
  all_goals exact deliveryInv_of_idle_or_timedOut (.inl (hc.disconnected_idle hconn))

theorem DeliveryInv.disconnectPort {s : State} (h : DeliveryInv s) : DeliveryInv (disconnectPort s) := by
  obtain ⟨-, e⟩ | ⟨-, e⟩ := disconnectPort_cases s <;> rw [e]
  · exact deliveryInv_of_idle_or_timedOut (.inl rfl)
  · exact h.of_raw rfl rfl rfl fun _ _ => rfl

theorem DeliveryInv.startCapture {s : State} (h : DeliveryInv s) : DeliveryInv (startCapture s) := by
  obtain ⟨-, e⟩ | ⟨-, -, -, e⟩ | ⟨-, -, _, _, -, e⟩ | ⟨-, -, -, e⟩ := startCapture_cases s <;> rw [e]
  · exact h.of_raw rfl rfl rfl fun _ _ => rfl
  · exact deliveryInv_of_idle_or_timedOut (.inl rfl)
  · exact deliveryInv_of_idle_or_timedOut (.inl rfl)
  · exact deliveryInv_of_capturing rfl (congrArg List.length (deliveredBytes_linkWrite_linkPurge _ _)) (by simp)

theorem DeliveryInv.pollOnce {s : State} (h : DeliveryInv s) (hc : CounterInv s) : DeliveryInv (pollOnce s) := by
  have hbr := acceptBytes_br_toNat (readBytes 256 s) (linkRead 256 s) hc.br_le
  have hraw := fun hst => h.lookup_delivered hc.br_le hst 256
  have hlen : s.st = .capturing →
      (deliveredBytes (linkRead 256 s).link.log).length = s.br.toNat + (readBytes 256 s).length := fun hst => by
    rw [deliveredBytes_linkRead, List.length_append, h.capturing hst]
  rw [linkRead_br] at hbr
  obtain ⟨-, e⟩ | ⟨hst, -, hfull, e⟩ | ⟨hst, -, hpart, e⟩ | ⟨-, -, -, e⟩ | ⟨-, hnil, -, e⟩ := pollOnce_cases s <;>
    rw [e]
  · exact h.of_raw rfl rfl rfl fun _ _ => rfl
  · refine deliveryInv_of_done rfl ?_ fun i hi => ?_
    · have := copyCount_le_length (readBytes 256 s) s.br
      show 1024 ≤ (deliveredBytes (linkRead 256 s).link.log).length
      have := hlen hst
      omega
    · have hlt : i < 1024 := hfull ▸ hi
      rw [complete_mem, lookup_runDecode_raw _ (by simp only [Config.rawBase]; omega)]
      exact hraw hst i hi
  · refine deliveryInv_of_capturing hst ?_ (hraw hst)
    have hroom := copyCount_le_room (readBytes 256 s) s.br
    have hle := hc.br_le
    rw [respond_br, hbr, copyCount_eq_length (by omega)]
    exact hlen hst
  · exact deliveryInv_of_idle_or_timedOut (.inr rfl)
  · refine h.of_raw rfl rfl ?_ fun _ _ => rfl
    exact (deliveredBytes_linkRead 256 s).trans (by rw [hnil, List.append_nil])

/-- CONNECT's purge meets no capture by R30 (h), and the copy of POLL stays below BR = 1024 by (a), so the two
invariants go together. -/
theorem deliveryInv_stepClosed : StepClosed fun s => CounterInv s ∧ DeliveryInv s where
  engineWord := fun ⟨hc, hd⟩ => ⟨counterInv_stepClosed.engineWord hc, hd.of_raw rfl rfl rfl fun _ _ => rfl⟩
  hostEvent hhost := fun ⟨hc, hd⟩ =>
    ⟨counterInv_stepClosed.hostEvent hhost hc, hd.of_raw rfl rfl rfl fun _ _ => rfl⟩
  connect p := fun ⟨hc, hd⟩ => ⟨hc.connectPort p, hd.connectPort hc p⟩
  disconnect := fun ⟨hc, hd⟩ => ⟨hc.disconnectPort, hd.disconnectPort⟩
  start := fun ⟨hc, hd⟩ => ⟨hc.startCapture, hd.startCapture⟩
  poll := fun ⟨hc, hd⟩ => ⟨hc.pollOnce, hd.pollOnce hc⟩
  repack := fun ⟨hc, hd⟩ => ⟨counterInv_stepClosed.repack hc, hd.memFill hc.br_le (by decide)⟩
  colorize := fun ⟨hc, hd⟩ => ⟨counterInv_stepClosed.colorize hc, hd.memFill hc.br_le (by decide)⟩
  upscale := fun ⟨hc, hd⟩ => ⟨counterInv_stepClosed.upscale hc, hd.memFill hc.br_le (by decide)⟩
  reset := fun ⟨hc, _⟩ => ⟨counterInv_stepClosed.reset hc, deliveryInv_of_idle_or_timedOut (.inl rfl)⟩
  illegal := fun ⟨hc, hd⟩ => ⟨counterInv_stepClosed.illegal hc, hd.of_raw rfl rfl rfl fun _ _ => rfl⟩

/-- Settles O43: a START that succeeds begins from an empty record and BR = 0, and POLL appends what it read to the
record and, up to BR = 1024, to RAW. -/
theorem stepKeepsDelivery : Obligations.StepKeepsDelivery := by
  intro s t hc hd h
  obtain ⟨-, hd'⟩ := deliveryInv_stepClosed.of_step ⟨hc, hd⟩ h
  exact hd'

/-! ### Host reads of the buffers (R52, R54) -/

theorem readBuffer_of_done {s : State} (h : s.st = .done) (a : BitVec 20) :
    readBuffer a s = if mapped a.toNat then .ok (byteAt s a.toNat) else .error (.unmappedAddress a.toNat) := by
  simp [readBuffer, outputValid, h]

theorem byteAt_congr {s t : State} (hmem : t.mem = s.mem) (hepoch : t.epoch = s.epoch) (a : Nat) :
    byteAt t a = byteAt s a := by
  rw [byteAt, byteAt, hmem, hepoch]

/-- An instruction that does not leave Done changes no buffer byte: the host's do not reach the buffers there, and an
engine word computes the bytes that are there already. -/
theorem exec_byteAt_of_done {i : Instr} {s t : State} (hb : BufferInv s) (hs : s.st = .done)
    (h : exec i s = .next t) (ht : t.st = .done) (a : Nat) : byteAt t a = byteAt s a := by
  cases i with
  | connect p => cases h; exact byteAt_congr (connectPort_mem p s) (connectPort_epoch p s) a
  | disconnect =>
    cases h
    obtain ⟨-, e⟩ | ⟨-, e⟩ := disconnectPort_cases s <;> rw [e] at ht ⊢
    · cases ht
    · rfl
  | start =>
    cases h
    obtain ⟨-, e⟩ | ⟨-, -, -, e⟩ | ⟨-, -, _, _, -, e⟩ | ⟨-, -, -, e⟩ := startCapture_cases s <;> rw [e] at ht ⊢
    · rfl
    all_goals cases ht
  | poll =>
    have e : pollOnce s = respond .evNoop s := if_neg (by simp [hs])
    cases h
    rw [e]
    rfl
  | repack => cases h; exact byteAt_memFill_same (hb.canon hs) a
  | colorize => cases h; exact byteAt_memFill_same (hb.thumb hs) a
  | upscale => cases h; exact byteAt_memFill_same (hb.preview hs) a

theorem step_byteAt_of_done {s t : State} (hc : CounterInv s) (hb : BufferInv s) (hs : s.st = .done)
    (h : step s = .next t) (ht : t.st = .done) (a : Nat) : byteAt t a = byteAt s a := by
  obtain ⟨w, i, -, -, hexec⟩ | ⟨-, -, rfl⟩ | ⟨rest, -, -, rfl⟩ | ⟨w, rest, i, -, hhost, -, hexec⟩ |
    ⟨w, rest, e, -, -, -, rfl⟩ := step_cases h
  case inl => exact exec_byteAt_of_done (bufferInv_stepClosed.engineWord ⟨hc, hb⟩).2 hs hexec ht a
  case inr.inl => rfl
  case inr.inr.inl => cases ht
  case inr.inr.inr.inl => exact exec_byteAt_of_done (bufferInv_stepClosed.hostEvent hhost ⟨hc, hb⟩).2 hs hexec ht a
  case inr.inr.inr.inr => rfl

/-- Settles O53: in Done a read goes by the map of R52 and by bytes that no step staying in Done changes. -/
theorem bufferReads : Obligations.BufferReads := by
  refine ⟨fun s a hs ha => ?_, fun s a hs ha => ?_, fun s a hs => readBuffer_of_not_done hs a,
    fun s t a hc hb hs h ht => ?_⟩
  · rw [readBuffer_of_done hs, if_pos ha]
  · rw [readBuffer_of_done hs, if_neg (by rw [mapped_iff]; omega)]
  · rw [readBuffer_of_done hs, readBuffer_of_done ht, step_byteAt_of_done hc hb hs h ht]

/-! ### The queue after a purge (R65, R103, R112) -/

theorem unreadBytes_of_rx_nil {s : State} (h : s.link.rx = []) : unreadBytes s = (readAnswer s.env).arrived := by
  rw [unreadBytes, h, List.nil_append]

theorem connectPort_rx {p : Nat} {s : State} (hc : s.conn = false) (ha : openAnswer s.env = .ok) :
    (connectPort p s).link.rx = [] := by
  obtain ⟨hc', -⟩ | ⟨-, ha', -⟩ | ⟨-, ha', -⟩ | ⟨-, -, e⟩ := connectPort_cases p s
  · simp [hc] at hc'
  · simp [ha] at ha'
  · simp [ha] at ha'
  · simp [e]

/-- START purges before its write, and the write receives nothing (R121). -/
theorem startCapture_rx {s : State} (hc : s.conn = true)
    (hr : s.st = .capturing → s.params.startWhileCapturing = .restart) : (startCapture s).link.rx = [] := by
  obtain ⟨hc', -⟩ | ⟨-, hst, hp, -⟩ | ⟨-, -, _, _, -, e⟩ | ⟨-, -, -, e⟩ := startCapture_cases s
  · simp [hc] at hc'
  · simp [hr hst] at hp
  · simp [e]
  · simp [e]

/-- Settles O55: both commands purge, and nothing they do afterwards receives a byte. -/
theorem purgeLeavesNothingUnread : Obligations.PurgeLeavesNothingUnread := by
  refine ⟨fun p s hc ha => ?_, fun s hc hr _ => ?_⟩
  · have hrx := connectPort_rx (p := p) hc ha
    exact ⟨_, rfl, hrx, unreadBytes_of_rx_nil hrx⟩
  · have hrx := startCapture_rx hc hr
    exact ⟨_, rfl, hrx, unreadBytes_of_rx_nil hrx⟩

end Sys2Proof.Machine

/-! Encoding and the two ports (30_encoding.md R80 to R91): the fields of a word, decode against encode on both ports,
the words the host port rejects, what a step does with a presented word, the response codes of R86, and the token that
START sends (R88). -/

namespace Sys2Proof.Machine

/-! ### The fields of a word (R81, R82) -/

theorem opField_append_argField (w : Word) : opField w ++ argField w = w :=
  BitVec.extractLsb'_append_extractLsb' (w := 8) (len := 8)

@[simp] theorem opField_append (a b : Byte) : opField (a ++ b) = a := BitVec.extractLsb'_append_eq_left

@[simp] theorem argField_append (a b : Byte) : argField (a ++ b) = b := BitVec.extractLsb'_append_eq_right

@[simp] theorem opField_encode (i : Instr) : opField (encode i) = opcode i := opField_append _ _

@[simp] theorem argField_encode (i : Instr) : argField (encode i) = argument i := argField_append _ _

theorem opField_toNat (w : Word) : (opField w).toNat = w.toNat / 256 := by
  have := w.isLt
  simp only [opField, BitVec.extractLsb'_toNat, Nat.shiftRight_eq_div_pow]
  omega

theorem portOperand_eq (w : Word) : portOperand w = w.toNat % 256 := by
  simp [portOperand, argField]

theorem portOperand_lt (w : Word) : portOperand w < 256 := (argField w).isLt

/-! ### The rows of the tables (R83, R84) -/

/-- Every row but CONNECT's matches one word, that of its instruction. -/
theorem row_of_ne_connect {i : Instr} (h : ∀ p, i ≠ .connect p) :
    rowMask i = BitVec.allOnes 16 ∧ rowMatch i = encode i ∧ i.wellFormed = true := by
  cases i with
  | connect p => exact absurd rfl (h p)
  | disconnect | start | poll | repack | colorize | upscale => exact ⟨rfl, rfl, rfl⟩

/-- CONNECT's row tests OP and nothing else. -/
theorem and_connectMask_eq_iff (w : Word) : w &&& 0xFF00 = 0x0100 ↔ opField w = 0x01 := by
  have hand : w &&& 0xFF00 = opField w ++ 0#8 := by
    conv_lhs => rw [← opField_append_argField w]
    refine (BitVec.and_append (x₂ := BitVec.allOnes 8) (y₂ := 0#8)).trans ?_
    rw [BitVec.and_allOnes, BitVec.and_zero]
  rw [hand]
  exact BitVec.append_left_inj (s₂ := 0x01#8) 0#8

theorem wellFormed_connect_iff (p : Nat) : (Instr.connect p).wellFormed = true ↔ p < 256 := decide_eq_true_iff

theorem wellFormedOn_iff (port : Port) (i : Instr) :
    i.wellFormedOn port = true ↔ i.wellFormed = true ∧ i.port = port := by
  simp [Instr.wellFormedOn]

/-- The words of CONNECT: OP is 0x01, the operand the low byte (R82). -/
theorem encode_connect_eq_iff {p : Nat} (hp : p < 256) (w : Word) :
    encode (.connect p) = w ↔ opField w = 0x01 ∧ p = portOperand w := by
  constructor
  · rintro rfl
    refine ⟨opField_encode _, ?_⟩
    rw [portOperand, argField_encode, argument, BitVec.toNat_ofNat, Nat.mod_eq_of_lt hp]
  · rintro ⟨hop, rfl⟩
    rw [encode, opcode, ← hop, argument, portOperand, BitVec.ofNat_toNat, BitVec.setWidth_eq]
    exact opField_append_argField w

/-- The row of an instruction selects the one word it encodes to, CONNECT's together with the operand. -/
theorem selectsRow_iff (w : Word) (i : Instr) :
    (w &&& rowMask i = rowMatch i ∧ ∀ p, i = .connect p → p = w.toNat % 256) ↔
      encode i = w ∧ i.wellFormed = true := by
  by_cases hi : ∃ p, i = .connect p
  · obtain ⟨p, rfl⟩ := hi
    have hrow : w &&& rowMask (.connect p) = rowMatch (.connect p) ↔ opField w = 0x01 := and_connectMask_eq_iff w
    have hlt := portOperand_lt w
    rw [hrow, wellFormed_connect_iff, ← portOperand_eq]
    constructor
    · rintro ⟨hop, harg⟩
      obtain rfl := harg p rfl
      exact ⟨(encode_connect_eq_iff hlt w).2 ⟨hop, rfl⟩, hlt⟩
    · rintro ⟨henc, hp⟩
      obtain ⟨hop, rfl⟩ := (encode_connect_eq_iff hp w).1 henc
      exact ⟨hop, fun q hq => (Instr.connect.inj hq).symm⟩
  · rw [not_exists] at hi
    obtain ⟨hmask, hmatch, hwf⟩ := row_of_ne_connect hi
    rw [hmask, hmatch, BitVec.and_allOnes]
    simp [hwf, hi, eq_comm]

/-! ### Decode against encode (R91) -/

/-- Every row's word decodes on the port of the row. -/
theorem decode_encode {i : Instr} (h : i.wellFormed = true) : decode i.port (encode i) = .ok i := by
  cases i with
  | connect p =>
    obtain ⟨hop, harg⟩ := (encode_connect_eq_iff ((wellFormed_connect_iff p).1 h) _).1 rfl
    show decodeHost (encode (.connect p)) = .ok (.connect p)
    rw [decodeHost, if_pos hop, ← harg]
  | disconnect | start | poll | repack | colorize | upscale => rfl

theorem encode_of_decodeEngine {w : Word} {i : Instr} (h : decode .engine w = .ok i) :
    encode i = w ∧ i.wellFormed = true := by
  simp only [decode, decodeEngine] at h
  split_ifs at h with hw hw hw <;> cases h <;> exact ⟨hw.symm, rfl⟩

theorem encode_of_decodeHost {w : Word} {i : Instr} (h : decode .host w = .ok i) :
    encode i = w ∧ i.wellFormed = true := by
  have hlt := portOperand_lt w
  simp only [decode, decodeHost] at h
  split_ifs at h with hw hw hw hw
  case pos =>
    cases h
    exact ⟨(encode_connect_eq_iff hlt w).2 ⟨hw, rfl⟩, (wellFormed_connect_iff _).2 hlt⟩
  case neg => split at h <;> cases h
  all_goals cases h; exact ⟨hw.symm, rfl⟩

/-- A port decodes exactly the words of its own rows' instructions. -/
theorem decode_eq_ok_iff (port : Port) (w : Word) (i : Instr) :
    decode port w = .ok i ↔ encode i = w ∧ i.wellFormedOn port = true := by
  rw [wellFormedOn_iff]
  constructor
  · intro h
    cases port with
    | host =>
      obtain ⟨henc, hwf⟩ := encode_of_decodeHost h
      exact ⟨henc, hwf, port_of_decodeHost h⟩
    | engine =>
      obtain ⟨henc, hwf⟩ := encode_of_decodeEngine h
      exact ⟨henc, hwf, port_of_decodeEngine h⟩
  · rintro ⟨rfl, hwf, rfl⟩
    exact decode_encode hwf

/-- OP alone says which port an operation is issued on (R83, R84). -/
theorem port_eq_of_opcode (i : Instr) : i.port = if (opcode i).toNat < 0x10 then .host else .engine := by
  cases i <;> rfl

theorem decode_encode_of_port_ne {port : Port} {i : Instr} (h : port ≠ i.port) :
    ∃ e, decode port (encode i) = .error e := by
  cases hd : decode port (encode i) with
  | error e => exact ⟨e, rfl⟩
  | ok j =>
    obtain ⟨henc, hwf⟩ := (decode_eq_ok_iff port _ j).1 hd
    obtain ⟨-, hport⟩ := (wellFormedOn_iff port j).1 hwf
    have hop : opcode j = opcode i := by rw [← opField_encode, henc, opField_encode]
    exact absurd (by rw [← hport, port_eq_of_opcode j, hop, ← port_eq_of_opcode i]) h

/-- Settles O1: each row's word is decoded by its own port, and OP tells the two ports' rows apart. -/
theorem decodeOfEncode : Obligations.DecodeOfEncode :=
  fun _ hi => ⟨decode_encode hi, fun _ hport => decode_encode_of_port_ne hport⟩

/-- Settles O2, by the words each port decodes. -/
theorem encodeOfDecode : Obligations.EncodeOfDecode :=
  fun port w i h => (decode_eq_ok_iff port w i).1 h

/-- Settles O3: both sides hold of exactly the word the instruction encodes to. -/
theorem decodeSelectsTableRow : Obligations.DecodeSelectsTableRow := by
  intro w i
  rw [selectsRow_iff, decode_eq_ok_iff, wellFormedOn_iff]
  simp

/-- Settles O9: the decoder computes on each of the twelve words. -/
theorem decodedWordSamples : Obligations.DecodedWordSamples := by
  unfold Obligations.DecodedWordSamples
  decide

/-! ### What a step does with the word at hand (R20, R80, R85) -/

theorem step_of_engineWord {s : State} {w : Word} (h : s.engine = some w) :
    step s = runEngineWord w (takeEngineWord s) := by
  rw [step, h]

theorem step_of_hostWord {s : State} {w : Word} {rest : List HostEvent} (he : s.engine = none)
    (hh : s.host = .command w :: rest) : step s = runHostWord w (takeHostEvent rest s) := by
  simp only [step, he, hh]

theorem runEngineWord_of_ok {w : Word} {i : Instr} (h : decode .engine w = .ok i) (s : State) :
    runEngineWord w s = exec i s := by
  rw [runEngineWord, h]

theorem runEngineWord_of_error {w : Word} {e : DecodeError} (h : decode .engine w = .error e) (s : State) :
    runEngineWord w s = .refused (.notAnEngineWord w) := by
  rw [runEngineWord, h]

theorem runHostWord_of_ok {w : Word} {i : Instr} (h : decode .host w = .ok i) (s : State) :
    runHostWord w s = exec i s := by
  rw [runHostWord, h]

theorem runHostWord_of_error {w : Word} {e : DecodeError} (h : decode .host w = .error e) (s : State) :
    runHostWord w s = .next (illegalCommand s) := by
  rw [runHostWord, h]

/-- Settles O6: each port's word leaves the port and runs. -/
theorem stepRunsDecodedInstruction : Obligations.StepRunsDecodedInstruction := by
  refine ⟨fun s w rest i he hh hi => ?_, fun s w i he hi => ?_⟩
  · rw [step_of_hostWord he hh, runHostWord_of_ok hi, takeHostEvent]
  · rw [step_of_engineWord he, runEngineWord_of_ok hi, takeEngineWord]

/-! ### The words a port rejects (R85) -/

theorem decodeEngine_of_not_mem {w : Word} (h : w ∉ [(0x1000 : Word), 0x1100, 0x1200]) :
    decode .engine w = .error .notAnEngineWord := by
  simp only [List.mem_cons, List.not_mem_nil, or_false, not_or] at h
  obtain ⟨hrepack, hcolorize, hupscale⟩ := h
  rw [decode, decodeEngine, if_neg hrepack, if_neg hcolorize, if_neg hupscale]

/-- Settles O5: the engine port's decoder knows three words. -/
theorem enginePortRefusesOtherWords : Obligations.EnginePortRefusesOtherWords :=
  fun _ _ he hw => (step_of_engineWord he).trans (runEngineWord_of_error (decodeEngine_of_not_mem hw) _)

/-- The host port rejects every word that is none of its four rows'. -/
theorem decodeHost_error_iff (w : Word) :
    (∃ e, decode .host w = .error e) ↔ ¬ (opField w = 0x01 ∨ w = 0x0200 ∨ w = 0x0300 ∨ w = 0x0400) := by
  simp only [decode, decodeHost]
  split_ifs with hconnect hdisconnect hstart hpoll
  case neg =>
    simp only [hconnect, hdisconnect, hstart, hpoll, or_self, not_false_eq_true, iff_true]
    split <;> exact ⟨_, rfl⟩
  all_goals simp [*]

/-- R85's ranges, read by OP and ARG, leave exactly the four rows of R83. -/
theorem reserved_iff (w : Word) :
    ((w.toNat / 256 = 0x00 ∨ (0x05 ≤ w.toNat / 256 ∧ w.toNat / 256 ≤ 0x0F) ∨ 0x13 ≤ w.toNat / 256) ∨
        (w.toNat / 256 ∈ [0x02, 0x03, 0x04, 0x10, 0x11, 0x12] ∧ w.toNat % 256 ≠ 0) ∨
        w ∈ [(0x1000 : Word), 0x1100, 0x1200]) ↔
      ¬ (opField w = 0x01 ∨ w = 0x0200 ∨ w = 0x0300 ∨ w = 0x0400) := by
  simp only [← BitVec.toNat_inj, opField_toNat, List.mem_cons, List.not_mem_nil, or_false, BitVec.reduceToNat]
  omega

/-- Settles O4: R85's ranges are what the four host rows leave over, and an illegal word has one effect. -/
theorem illegalHostWords : Obligations.IllegalHostWords := by
  refine fun w => ⟨(reserved_iff w).trans (decodeHost_error_iff w).symm, fun s rest he hh herr => ?_⟩
  obtain ⟨e, herr⟩ := herr
  rw [step_of_hostWord he hh, runHostWord_of_error herr]
  rfl

/-! ### Presenting a word (R80; assumption log 2) -/

/-- A 16-bit word is its own table word. -/
theorem tableWord_toNat (w : Word) : tableWord 16 w.toNat = w := by
  rw [tableWord, Nat.mod_eq_of_lt w.isLt, BitVec.ofNat_toNat, BitVec.setWidth_eq]

theorem presentWord_of_engine {w : Word} {i : Instr} (h : decode .engine w = .ok i) (s : State) :
    presentWord w s = presentEngineWord w s := by
  rw [decode] at h
  rw [presentWord, h]

theorem presentWord_of_not_engine {w : Word} {e : DecodeError} (h : decode .engine w = .error e) (s : State) :
    presentWord w s = presentHostWord w s := by
  rw [decode] at h
  rw [presentWord, h]

theorem step_presentHostWord {w : Word} {i : Instr} (h : decode .host w = .ok i) (s : State) :
    step (presentHostWord w s) = exec i { s with engine := none } := by
  rw [step_of_hostWord rfl rfl, runHostWord_of_ok h]
  rfl

theorem step_presentEngineWord {w : Word} {i : Instr} (h : decode .engine w = .ok i) (s : State) :
    step (presentEngineWord w s) = exec i { s with engine := none } := by
  rw [step_of_engineWord rfl, runEngineWord_of_ok h]
  rfl

/-- Each instruction's word goes to the port of its row and runs from there. -/
theorem step_presentWord_encode {i : Instr} (hi : i.wellFormed = true) (s : State) :
    step (presentWord (encode i) s) = exec i { s with engine := none } := by
  have hok := decode_encode hi
  cases hport : i.port with
  | host =>
    obtain ⟨e, he⟩ := decode_encode_of_port_ne (port := .engine) (i := i) (by simp [hport])
    rw [presentWord_of_not_engine he, step_presentHostWord (hport ▸ hok)]
  | engine =>
    rw [hport] at hok
    rw [presentWord_of_engine hok, step_presentEngineWord hok]

theorem decodeTableWord_of_host {w : Word} {i : Instr} (h : decode .host w = .ok i) :
    decodeTableWord 16 w.toNat = some i := by
  rw [decode] at h
  rw [decodeTableWord, tableWord_toNat, h]

theorem decodeTableWord_of_engine {w : Word} {i : Instr} {e : DecodeError} (hhost : decode .host w = .error e)
    (h : decode .engine w = .ok i) : decodeTableWord 16 w.toNat = some i := by
  simp only [decode] at hhost h
  rw [decodeTableWord, tableWord_toNat, hhost, h]
  rfl

theorem decodeTableWord_encode {i : Instr} (hi : i.wellFormed = true) :
    decodeTableWord 16 (encode i).toNat = some i := by
  have hok := decode_encode hi
  cases hport : i.port with
  | host => exact decodeTableWord_of_host (hport ▸ hok)
  | engine =>
    obtain ⟨e, he⟩ := decode_encode_of_port_ne (port := .host) (i := i) (by simp [hport])
    exact decodeTableWord_of_engine he (hport ▸ hok)

/-- Settles O8: the word reaches the port of its row, where it decodes to the instruction. -/
theorem presentedWordRuns : Obligations.PresentedWordRuns := by
  refine fun s i hi => ⟨?_, decodeTableWord_encode hi⟩
  rw [State.withFetchWord, tableWord_toNat, step_presentWord_encode hi]

/-! ### The codes of RESP (R86) -/

theorem legalResponse_responseCode (r : Response) : legalResponse (responseCode r) = true := by
  cases r <;> rfl

/-! Each host command ends by writing the code of a response (R32). -/

theorem connectPort_resp (p : Nat) (s : State) : ∃ r, (connectPort p s).resp = responseCode r := by
  obtain ⟨-, e⟩ | ⟨-, -, e⟩ | ⟨-, -, e⟩ | ⟨-, -, e⟩ := connectPort_cases p s <;> simp [e]

theorem disconnectPort_resp (s : State) : ∃ r, (disconnectPort s).resp = responseCode r := by
  obtain ⟨-, e⟩ | ⟨-, e⟩ := disconnectPort_cases s <;> simp [e]

theorem startCapture_resp (s : State) : ∃ r, (startCapture s).resp = responseCode r := by
  obtain ⟨-, e⟩ | ⟨-, -, -, e⟩ | ⟨-, -, _, _, -, e⟩ | ⟨-, -, -, e⟩ := startCapture_cases s <;>
    simp [e]

theorem pollOnce_resp (s : State) : ∃ r, (pollOnce s).resp = responseCode r := by
  obtain ⟨-, e⟩ | ⟨-, -, -, e⟩ | ⟨-, -, -, e⟩ | ⟨-, -, -, e⟩ | ⟨-, -, -, e⟩ := pollOnce_cases s <;>
    simp [e]

theorem legalResponse_of_exists {c : BitVec 4} (h : ∃ r, c = responseCode r) : legalResponse c = true := by
  obtain ⟨r, rfl⟩ := h
  exact legalResponse_responseCode r

theorem legalResponse_stepClosed : StepClosed fun s => legalResponse s.resp = true where
  engineWord h := h
  hostEvent _ h := h
  connect p _ := legalResponse_of_exists (connectPort_resp p _)
  disconnect _ := legalResponse_of_exists (disconnectPort_resp _)
  start _ := legalResponse_of_exists (startCapture_resp _)
  poll _ := legalResponse_of_exists (pollOnce_resp _)
  repack h := h
  colorize h := h
  upscale h := h
  reset _ := legalResponse_responseCode .ok
  illegal _ := legalResponse_responseCode .errIllegalCmd

/-- Settles O45: a part of a step leaves RESP alone or writes one of R86's codes. -/
theorem stepKeepsLegalResponse : Obligations.StepKeepsLegalResponse :=
  fun _ _ hs h => legalResponse_stepClosed.of_step hs h

/-! ### START and the token (R88, R121) -/

/-- A write after a purge: only the bytes written can stay unsent (R103, R104). -/
theorem linkWrite_linkPurge (bytes : List Byte) (s : State) :
    linkWrite bytes (linkPurge s) =
      { s with
        env := writeAnswered s.env
        link := { s.link with
          rx := [], tx := unsentAfter bytes (writeAnswer s.env)
          log := s.link.log ++ [.purge, .write bytes (writeAnswer s.env)] } } := by
  simp [linkWrite, linkPurge]

theorem startCapture_of_write_ok {s : State} (hc : s.conn = true)
    (hr : s.st = .capturing → s.params.startWhileCapturing = .restart) (hw : writeAnswer s.env = .ok) :
    startCapture s =
      respond .ok { linkWrite Config.token (linkPurge (forceIdle s)) with br := 0, rc := 0, st := .capturing } := by
  obtain ⟨hc', -⟩ | ⟨-, hst, hp, -⟩ | ⟨-, -, _, _, hw', -⟩ | ⟨-, -, -, e⟩ := startCapture_cases s
  · simp [hc] at hc'
  · simp [hr hst] at hp
  · simp [hw] at hw'
  · exact e

theorem progress_of_br_zero {s : State} (h : s.br = 0) : progress s = 0 := by
  simp [progress, h]

/-- Settles O15: the outcome of START whose write succeeds, with the link after its purge and write. -/
theorem startSendsToken : Obligations.StartSendsToken := by
  intro s hc hr hw
  refine ⟨_, [], s.epoch + 1, rfl, ?_, progress_of_br_zero rfl, readBuffer_of_not_done (by simp)⟩
  show Host.Outcome.next (startCapture s) = _
  rw [startCapture_of_write_ok hc hr hw, linkWrite_linkPurge, forceIdle_env, hw]
  rfl

end Sys2Proof.Machine

/-! The serial link of 40_serial_link.md: the outcomes of CONNECT and DISCONNECT, what a read returns, and a whole
capture in the reference environment of R107. -/

namespace Sys2Proof.Machine

/-! ### What a read returns (R105, R106, R107) -/

/-- A read by the answer at hand: a first part of what the link holds and what has arrived. -/
theorem readBytes_of_reads {s : State} {a : ReadAnswer} {rest : List ReadAnswer} (h : s.env.reads = a :: rest)
    (max : Nat) : readBytes max s = (s.link.rx ++ a.arrived).take (min a.count max) := by
  simp only [readBytes, unreadBytes, readAnswer, h]

theorem linkRead_rx_of_reads {s : State} {a : ReadAnswer} {rest : List ReadAnswer} (h : s.env.reads = a :: rest)
    (max : Nat) : (linkRead max s).link.rx = (s.link.rx ++ a.arrived).drop (min a.count max) := by
  simp only [linkRead, unreadBytes, readAnswer, h]

/-- Settles O57: the reference answer gives a read all the 256 bytes it asks for. -/
theorem referenceReads : Obligations.ReferenceReads := by
  intro s arrived rest h
  have hread : readBytes 256 s = (s.link.rx ++ arrived).take 256 := readBytes_of_reads h 256
  refine ⟨hread, ?_, linkRead_rx_of_reads h 256⟩
  rw [hread, List.length_take, Nat.min_comm]

/-- The arrivals that make `d` the first unread bytes, where `d` agrees with the bytes the link holds. -/
theorem exists_arrivals_of_agrees {rx d : List Byte} (h : d <+: rx ∨ rx <+: d) :
    ∃ arrived, d <+: rx ++ arrived := by
  obtain h | ⟨more, rfl⟩ := h
  · exact ⟨[], h.trans (List.prefix_append rx [])⟩
  · exact ⟨more, List.prefix_rfl⟩

/-- Settles O56: a read splits what was unread, and the environment chooses the arrivals and the count. -/
theorem readsAreOldestAndFree : Obligations.ReadsAreOldestAndFree := by
  refine ⟨fun s => ⟨readBytes_length_le 256 s, readBytes_append_rest 256 s⟩, fun s d hlen hagrees => ?_⟩
  obtain ⟨arrived, hprefix⟩ := exists_arrivals_of_agrees hagrees
  refine ⟨{ arrived := arrived, count := d.length }, ?_⟩
  rw [readBytes_of_reads rfl, Nat.min_eq_left hlen]
  exact (List.prefix_iff_eq_take.1 hprefix).symm

/-! ### CONNECT (R108) -/

theorem encode_connect_toNat {p : Nat} (hp : p < 256) : (encode (.connect p)).toNat = 0x0100 + p := by
  obtain ⟨hop, harg⟩ := (encode_connect_eq_iff hp _).1 rfl
  have hhigh := opField_toNat (encode (.connect p))
  rw [hop] at hhigh
  rw [portOperand_eq] at harg
  simp only [BitVec.reduceToNat] at hhigh
  omega

theorem connectPort_of_connected {p : Nat} {s : State} (hc : s.conn = true) :
    connectPort p s = raise .errAlreadyConnected s := if_pos hc

theorem connectPort_of_unavailable {p : Nat} {s : State} (hc : s.conn = false)
    (ha : openAnswer s.env = .portUnavailable) : connectPort p s = raise .errPortUnavailable (linkOpen p s) := by
  simp [connectPort, hc, ha]

theorem connectPort_of_rejected {p : Nat} {s : State} (hc : s.conn = false)
    (ha : openAnswer s.env = .configurationRejected) :
    connectPort p s = raise .errConfigRejected (linkOpen p s) := by
  simp [connectPort, hc, ha]

theorem connectPort_of_ok {p : Nat} {s : State} (hc : s.conn = false) (ha : openAnswer s.env = .ok) :
    connectPort p s = respond .ok { linkPurge (linkOpen p s) with conn := true } := by
  simp [connectPort, hc, ha]

/-- A failed open leaves no handle; the link's queues stay (R101; assumption log 4). -/
theorem linkOpen_of_failed {p : Nat} {s : State} {a : OpenAnswer} (ha : openAnswer s.env = a) (hne : a ≠ .ok) :
    linkOpen p s =
      { s with
        env := openAnswered s.env
        link := { s.link with handle := none, log := s.link.log ++ [.open_ p a] } } := by
  rw [linkOpen, ha, if_neg hne]

/-- A successful open and the purge that follows it leave empty queues behind a configured line (R101, R103). -/
theorem linkPurge_linkOpen_of_ok {p : Nat} {s : State} (ha : openAnswer s.env = .ok) :
    linkPurge (linkOpen p s) =
      { s with
        env := openAnswered s.env
        link :=
          { handle := some { port := p, line := Config.lineConfig }, rx := [], tx := []
            log := s.link.log ++ [.open_ p .ok, .purge] } } := by
  simp [linkPurge, linkOpen, ha]

/-- Settles O10: each case of R108 with the link its open leaves. -/
theorem connectOutcomes : Obligations.ConnectOutcomes := by
  refine fun p s => ⟨encode_connect_toNat, fun hc => ?_, fun hc ha => ?_, fun hc ha => ?_, fun hc ha => ?_⟩ <;>
    refine congrArg Host.Outcome.next (?_ : connectPort p s = _)
  · exact connectPort_of_connected hc
  · rw [connectPort_of_unavailable hc ha, linkOpen_of_failed ha (by decide)]
    rfl
  · rw [connectPort_of_rejected hc ha, linkOpen_of_failed ha (by decide)]
    rfl
  · rw [connectPort_of_ok hc ha, linkPurge_linkOpen_of_ok ha]
    rfl

/-- Settles O11: the handle of the successful case holds `Config.lineConfig`, field by field that of R101. -/
theorem connectConfiguresTheLine : Obligations.ConnectConfiguresTheLine := by
  intro p s hc ha
  obtain ⟨-, -, -, -, hok⟩ := connectOutcomes p s
  exact ⟨_, _, hok hc ha, rfl, rfl, rfl, rfl, rfl, rfl, rfl, rfl, rfl, rfl, rfl⟩

/-! ### DISCONNECT (R110) -/

theorem disconnectPort_of_connected {s : State} (hc : s.conn = true) :
    disconnectPort s = respond .ok (forceIdle { linkClose s with conn := false }) := if_pos hc

theorem disconnectPort_of_not_connected {s : State} (hc : s.conn = false) : disconnectPort s = respond .ok s := by
  simp [disconnectPort, hc]

theorem disconnectPort_conn (s : State) : (disconnectPort s).conn = false := by
  obtain ⟨-, e⟩ | ⟨hc, e⟩ := disconnectPort_cases s <;> rw [e]
  · rfl
  · exact hc

theorem disconnectPort_resp_ok (s : State) : (disconnectPort s).resp = responseCode .ok := by
  obtain ⟨-, e⟩ | ⟨-, e⟩ := disconnectPort_cases s <;> rw [e] <;> rfl

/-- Answering with the response that stands changes nothing. -/
theorem respond_same {r : Response} {s : State} (h : s.resp = responseCode r) : respond r s = s := by
  rw [respond, ← h]

theorem disconnectPort_idempotent (s : State) : disconnectPort (disconnectPort s) = disconnectPort s := by
  rw [disconnectPort_of_not_connected (disconnectPort_conn s), respond_same (disconnectPort_resp_ok s)]

/-- Settles O12: the outcome with a connection is Idle, where no buffer byte can be read (R54), and a DISCONNECT leaves
CONN = 0 and RESP = OK, so that another one writes what is there. -/
theorem disconnectOutcomes : Obligations.DisconnectOutcomes := by
  refine fun s => ⟨rfl, fun hc => ?_, fun hc => ?_, fun t ht => ?_⟩
  · exact congrArg Host.Outcome.next (disconnectPort_of_not_connected hc)
  · refine ⟨_, [], s.epoch + 1, (closeAnswer s.env).rx, (closeAnswer s.env).tx, rfl, ?_,
      readBuffer_of_not_done (by simp)⟩
    exact congrArg Host.Outcome.next (disconnectPort_of_connected hc)
  · cases ht
    exact congrArg Host.Outcome.next (disconnectPort_idempotent s)

/-! ### One step in the reference environment (R107; assumption log 18) -/

theorem referenceStep_of_step {d : ReferenceDevice} {s t : State} (h : step (referenceLink d s) = .next t) :
    referenceStep d s = .next (if tokenSent s t then d.afterPiece.answerToken else d.afterPiece, t) := by
  rw [referenceStep, h]

theorem referenceRun_succ {d d' : ReferenceDevice} {s t : State} (n : Nat) (h : referenceStep d s = .next (d', t)) :
    referenceRun (n + 1) d s = referenceRun n d' t := by
  rw [referenceRun, h]

theorem referenceRun_one {d d' : ReferenceDevice} {s t : State} (h : referenceStep d s = .next (d', t)) :
    referenceRun 1 d s = .next (d', t) := referenceRun_succ 0 h

/-- The events a step adds to the record say whether the token went out. -/
theorem tokenSent_of_log {s t : State} {events : List LinkEvent} (h : t.link.log = s.link.log ++ events) :
    tokenSent s t = decide (LinkEvent.write Config.token .ok ∈ events) := by
  rw [tokenSent, h, List.drop_left]

/-- A command of the host runs over the link as the environment has left it. -/
theorem step_referenceLink {d : ReferenceDevice} {s : State} {i : Instr} {rest : List HostEvent}
    (hengine : s.engine = none) (hhost : s.host = .command (encode i) :: rest) (hi : i.wellFormed = true)
    (hport : i.port = .host) :
    step (referenceLink d s) = exec i (takeHostEvent rest (referenceLink d s)) := by
  rw [step_of_hostWord (s := referenceLink d s) hengine hhost, runHostWord_of_ok (hport ▸ decode_encode hi)]

/-- Something arrives as long as something is pending, where no piece is empty. -/
theorem piece_length_pos {d : ReferenceDevice} (hpieces : ∀ n ∈ d.pieces, 1 ≤ n) (hpending : d.pending ≠ []) :
    1 ≤ d.piece.length := by
  obtain ⟨frame, pending, pieces⟩ := d
  have hpos : 1 ≤ pending.length := List.length_pos_iff.2 hpending
  cases pieces with
  | nil => exact hpos
  | cons n ns =>
    have := hpieces n List.mem_cons_self
    simp only [ReferenceDevice.piece, List.length_take]
    omega

/-! ### A capture under way in the reference environment -/

@[simp] theorem startCapture_engine (s : State) : (startCapture s).engine = s.engine := by
  obtain ⟨-, e⟩ | ⟨-, -, -, e⟩ | ⟨-, -, _, _, -, e⟩ | ⟨-, -, -, e⟩ := startCapture_cases s <;> simp [e]

@[simp] theorem pollOnce_engine (s : State) : (pollOnce s).engine = s.engine := by
  obtain ⟨-, e⟩ | ⟨-, -, -, e⟩ | ⟨-, -, -, e⟩ | ⟨-, -, -, e⟩ | ⟨-, -, -, e⟩ := pollOnce_cases s <;> simp [e]

/-- The device is answering, or has answered, the token of the current session: the bytes delivered, those on the link
and those still pending are the frame, in this order, and no piece to come is empty. -/
structure Replying (frame : List Byte) (d : ReferenceDevice) (s : State) : Prop where
  counters : CounterInv s
  delivery : DeliveryInv s
  handle : s.link.handle.isSome = true
  engine : s.engine = none
  pieces : ∀ n ∈ d.pieces, 1 ≤ n
  reply : deliveredBytes s.link.log ++ s.link.rx ++ d.pending = frame

/-- The state in which the next POLL of a host runs: the piece has arrived, the command is taken. -/
def pollReady (d : ReferenceDevice) (rest : List HostEvent) (s : State) : State :=
  takeHostEvent rest (referenceLink d s)

section
variable {frame : List Byte} {d : ReferenceDevice} {s : State}

theorem Replying.unread (h : Replying frame d s) (rest : List HostEvent) :
    unreadBytes (pollReady d rest s) = s.link.rx ++ d.piece := by
  have hrx : (referenceLink d s).link.rx = s.link.rx ++ d.piece := referenceLink_rx_of_handle h.handle
  show (referenceLink d s).link.rx ++ (referenceRead []).arrived = _
  rw [hrx, referenceRead, List.append_nil]

/-- What the frame still lacks of the bytes received is on the link or pending. -/
theorem Replying.missing_length (h : Replying frame d s) (hst : s.st = .capturing) (hframe : frame.length = 1024) :
    s.link.rx.length + d.pending.length = 1024 - s.br.toNat := by
  have hlen := congrArg List.length h.reply
  simp only [List.length_append, h.delivery.capturing hst, hframe] at hlen
  omega

theorem Replying.read_length (h : Replying frame d s) (rest : List HostEvent) :
    (readBytes 256 (pollReady d rest s)).length = min 256 (s.link.rx.length + d.piece.length) := by
  have hread : readBytes 256 (pollReady d rest s) = (referenceLink d s).link.rx.take 256 :=
    readBytes_referenceLink d s
  rw [hread, referenceLink_rx_of_handle h.handle, List.length_take, List.length_append]

/-- While a frame is under way every POLL reads at least one byte and no more than the frame lacks; where the whole
reply arrives at once it reads all it asks for. -/
theorem Replying.read_bounds (h : Replying frame d s) (hst : s.st = .capturing) (hframe : frame.length = 1024)
    (rest : List HostEvent) :
    1 ≤ (readBytes 256 (pollReady d rest s)).length ∧
      s.br.toNat + (readBytes 256 (pollReady d rest s)).length ≤ 1024 ∧
      (d.pieces = [] → (readBytes 256 (pollReady d rest s)).length = min 256 (1024 - s.br.toNat)) := by
  have hmissing := h.missing_length hst hframe
  obtain ⟨hbr, -⟩ := h.counters.capturing_lt hst
  have hsplit := congrArg List.length (piece_append_pending d)
  rw [List.length_append] at hsplit
  rw [h.read_length]
  refine ⟨?_, by omega, fun hnone => ?_⟩
  · by_cases hpending : d.pending = []
    · simp only [hpending, List.length_nil] at hmissing
      omega
    · have := piece_length_pos h.pieces hpending
      omega
  · have hall : d.piece = d.pending := by rw [ReferenceDevice.piece, hnone]
    rw [hall, hmissing]

end

/-- A POLL whose read fits into RAW counts every byte of it, and completes or goes on (R126, R127). -/
theorem pollOnce_of_fitting {s : State} (hst : s.st = .capturing) (hbr : s.br.toNat ≤ 1024)
    (hpos : 1 ≤ (readBytes 256 s).length) (hfit : s.br.toNat + (readBytes 256 s).length ≤ 1024) :
    (pollOnce s).br.toNat = s.br.toNat + (readBytes 256 s).length ∧ (pollOnce s).link = (linkRead 256 s).link ∧
      ((pollOnce s).st = .capturing ∨ (pollOnce s).st = .done ∧ imageHandoff (pollOnce s) = true) := by
  have hcopy : copyCount (readBytes 256 s) s.br = (readBytes 256 s).length := Nat.min_eq_left (by
    simp only [Config.frameBytes]; omega)
  have haccept := acceptBytes_br_toNat (readBytes 256 s) (linkRead 256 s) hbr
  rw [linkRead_br, hcopy] at haccept
  obtain ⟨hno, -⟩ | ⟨-, -, -, e⟩ | ⟨-, -, -, e⟩ | ⟨-, hnil, -⟩ | ⟨-, hnil, -⟩ := pollOnce_cases s
  · exact absurd hst hno
  · rw [e]
    exact ⟨haccept, rfl, .inr ⟨rfl, rfl⟩⟩
  · rw [e]
    exact ⟨haccept, rfl, .inl hst⟩
  all_goals simp [hnil] at hpos

/-- What is read has been delivered and is no longer on the link, so the reply stays whole. -/
theorem reply_of_read {frame : List Byte} {d : ReferenceDevice} {s : State} (h : Replying frame d s)
    (rest : List HostEvent) :
    deliveredBytes (linkRead 256 (pollReady d rest s)).link.log ++ (linkRead 256 (pollReady d rest s)).link.rx ++
      d.afterPiece.pending = frame := by
  have hlog : (pollReady d rest s).link.log = s.link.log := rfl
  calc deliveredBytes (linkRead 256 (pollReady d rest s)).link.log ++ (linkRead 256 (pollReady d rest s)).link.rx ++
        d.afterPiece.pending
      = deliveredBytes s.link.log ++ unreadBytes (pollReady d rest s) ++ d.afterPiece.pending := by
        rw [deliveredBytes_linkRead, hlog, List.append_assoc (deliveredBytes _), readBytes_append_rest]
    _ = deliveredBytes s.link.log ++ s.link.rx ++ (d.piece ++ d.afterPiece.pending) := by
        rw [h.unread]; simp only [List.append_assoc]
    _ = frame := by rw [piece_append_pending, h.reply]

/-- One POLL of a capture under way: the reply stays whole, BR grows, and the capture goes on or completes. -/
theorem Replying.poll {frame : List Byte} {d : ReferenceDevice} {s : State} {rest : List HostEvent}
    (h : Replying frame d s) (hst : s.st = .capturing) (hframe : frame.length = 1024)
    (hhost : s.host = .command (encode .poll) :: rest) :
    ∃ t, referenceStep d s = .next (d.afterPiece, t) ∧ Replying frame d.afterPiece t ∧ t.host = rest ∧
      s.br.toNat < t.br.toNat ∧ (d.pieces = [] → t.br.toNat = s.br.toNat + min 256 (1024 - s.br.toNat)) ∧
      (t.st = .capturing ∨ t.st = .done ∧ imageHandoff t = true) := by
  obtain ⟨hpos, hfit, hall⟩ := h.read_bounds hst hframe rest
  obtain ⟨hbr, hlink, hend⟩ := pollOnce_of_fitting (s := pollReady d rest s) hst h.counters.br_le hpos hfit
  have hbr' : (pollOnce (pollReady d rest s)).br.toNat = s.br.toNat + _ := hbr
  have hcounters : CounterInv (pollReady d rest s) := h.counters.of_registers rfl rfl rfl rfl
  have hdelivery : DeliveryInv (pollReady d rest s) := h.delivery.of_raw rfl rfl rfl fun _ _ => rfl
  have hlog : (pollOnce (pollReady d rest s)).link.log =
      s.link.log ++ [.read 256 (readBytes 256 (pollReady d rest s))] := by rw [hlink]; rfl
  have hstep : step (referenceLink d s) = .next (pollOnce (pollReady d rest s)) :=
    step_referenceLink h.engine hhost rfl rfl
  refine ⟨_, ?_, ?_, by rw [pollOnce_host]; rfl, by omega, fun hnone => by rw [hbr', hall hnone], hend⟩
  · rw [referenceStep_of_step hstep, tokenSent_of_log hlog]
    simp
  · exact
      { counters := hcounters.pollOnce
        delivery := hdelivery.pollOnce hcounters
        handle := by rw [hlink]; exact h.handle
        engine := by rw [pollOnce_engine]; exact h.engine
        pieces := fun n hn => h.pieces n (List.mem_of_mem_tail hn)
        reply := by rw [hlink]; exact reply_of_read h rest }

/-- POLLs enough for one byte each complete the capture; where the whole reply arrives at once each POLL takes 256
bytes. -/
theorem Replying.completes {frame : List Byte} (hframe : frame.length = 1024) (m : Nat) :
    ∀ {d : ReferenceDevice} {s : State}, Replying frame d s → s.st = .capturing →
      s.host = List.replicate m (.command (encode .poll)) → 1024 ≤ s.br.toNat + m →
      ∃ k ≤ 1024 - s.br.toNat, ∃ d' t, referenceRun k d s = .next (d', t) ∧ Replying frame d' t ∧ t.st = .done ∧
        imageHandoff t = true ∧ (d.pieces = [] → k = (1024 - s.br.toNat + 255) / 256) := by
  induction m with
  | zero =>
    intro d s h hst _ hm
    obtain ⟨hbr, -⟩ := h.counters.capturing_lt hst
    omega
  | succ m ih =>
    intro d s h hst hhost hm
    obtain ⟨hlt, -⟩ := h.counters.capturing_lt hst
    obtain ⟨t, hstep, ht, hrest, hbr, hall, hgoes | ⟨hdone, hhandoff⟩⟩ := h.poll hst hframe hhost
    · obtain ⟨htlt, -⟩ := ht.counters.capturing_lt hgoes
      obtain ⟨k, hk, d', u, hrun, hu, hdone, hhandoff, hcount⟩ := ih ht hgoes hrest (by omega)
      refine ⟨k + 1, by omega, d', u, (referenceRun_succ k hstep).trans hrun, hu, hdone, hhandoff, fun hnone => ?_⟩
      have hnone' : d.afterPiece.pieces = [] := by rw [ReferenceDevice.afterPiece, hnone]; rfl
      have := hall hnone
      have := hcount hnone'
      omega
    · have hfull := ht.counters.done_iff.1 hdone
      refine ⟨1, by omega, _, t, referenceRun_one hstep, ht, hdone, hhandoff, fun hnone => ?_⟩
      have := hall hnone
      omega

/-- After completion RAW holds the first 1024 bytes delivered, which are the frame (R63). -/
theorem Replying.lookup_raw {frame : List Byte} {d : ReferenceDevice} {s : State} (h : Replying frame d s)
    (hst : s.st = .done) : ∀ i < 1024, s.mem.lookup (0x00000 + i) = frame[i]? := by
  intro i hi
  have hlen := h.delivery.done hst
  have hbr := h.counters.done_iff.1 hst
  rw [← h.reply, List.append_assoc, List.getElem?_append_left (by omega)]
  exact h.delivery.stored (.inr hst) i (by omega)

/-- A START in the reference environment sends the token, and the device begins its reply (R107, R121). -/
theorem replying_of_start {d : ReferenceDevice} {s : State} {rest : List HostEvent}
    (hpieces : ∀ n ∈ d.pieces, 1 ≤ n) (hconn : s.conn = true) (hhandle : s.link.handle.isSome = true)
    (hrestart : s.st = .capturing → s.params.startWhileCapturing = .restart) (hengine : s.engine = none)
    (hhost : s.host = .command (encode .start) :: rest) :
    ∃ t, referenceStep d s = .next (d.afterPiece.answerToken, t) ∧ Replying d.frame d.afterPiece.answerToken t ∧
      t.st = .capturing ∧ t.br = 0 ∧ t.host = rest := by
  have hstep : step (referenceLink d s) = .next (startCapture (takeHostEvent rest (referenceLink d s))) :=
    step_referenceLink hengine hhost rfl rfl
  have e := startCapture_of_write_ok (s := takeHostEvent rest (referenceLink d s)) hconn hrestart rfl
  rw [linkWrite_linkPurge] at e
  rw [e] at hstep
  have hnext := referenceStep_of_step hstep
  rw [tokenSent_of_log rfl, if_pos (decide_eq_true (by simp))] at hnext
  refine ⟨_, hnext, ?_, rfl, rfl, rfl⟩
  have hdelivered : deliveredBytes (s.link.log ++ [.purge, .write Config.token .ok]) = [] := by
    simp [deliveredBytes]
  exact
    { counters := counterInv_of_capturing rfl hconn (by simp) (by simp)
      delivery := deliveryInv_of_capturing rfl (congrArg List.length hdelivered) (by simp)
      handle := hhandle
      engine := hengine
      pieces := fun n hn => hpieces n (List.mem_of_mem_tail hn)
      reply := congrArg (· ++ [] ++ d.frame) hdelivered }

/-- Settles O60: the START begins the reply, which every POLL carries on by at least one byte until RAW is full. -/
theorem referenceCaptureCompletes : Obligations.ReferenceCaptureCompletes := by
  intro d s hframe hpieces hconn hhandle hrestart hengine hhost
  obtain ⟨t, hstep, ht, hst, hbr, hpolls⟩ := replying_of_start hpieces hconn hhandle hrestart hengine hhost
  obtain ⟨k, hk, d', u, hrun, hu, hdone, hhandoff, hcount⟩ := ht.completes hframe 1024 hst hpolls (by omega)
  refine ⟨k + 1, by omega, d', u, (referenceRun_succ k hstep).trans hrun, hdone, hhandoff, hu.lookup_raw hdone,
    fun hnone => ?_⟩
  have hnone' : d.afterPiece.answerToken.pieces = [] := by
    rw [ReferenceDevice.answerToken, ReferenceDevice.afterPiece, hnone]; rfl
  rw [hcount hnone', hbr]
  rfl

end Sys2Proof.Machine

/-! The capture session of 41_capture_session.md: the outcomes of START and POLL, consecutive POLLs as iterates, the
transition table of R135, and by which steps a session is left. -/

namespace Sys2Proof.Machine

/-! ### START (R121 to R124) -/

theorem startCapture_of_not_connected {s : State} (hc : s.conn = false) :
    startCapture s = raise .errNotConnected s := by
  simp [startCapture, hc]

theorem startCapture_of_abandon {s : State} (hc : s.conn = true) (hst : s.st = .capturing)
    (hp : s.params.startWhileCapturing = .abandonOnly) : startCapture s = respond .ok (forceIdle s) := by
  simp [startCapture, hc, hst, hp]

theorem startCapture_of_write_error {s : State} {sent kept : Nat} (hc : s.conn = true)
    (hr : s.st = .capturing → s.params.startWhileCapturing = .restart)
    (hw : writeAnswer s.env = .error sent kept) :
    startCapture s = raise .errWrite (linkWrite Config.token (linkPurge (forceIdle s))) := by
  obtain ⟨hc', -⟩ | ⟨-, hst, hp, -⟩ | ⟨-, -, _, _, -, e⟩ | ⟨-, -, hw', -⟩ := startCapture_cases s
  · simp [hc] at hc'
  · simp [hr hst] at hp
  · exact e
  · simp [hw] at hw'

/-- Settles O14: R30 (h) gives the Idle state of R122. -/
theorem startWithoutConnection : Obligations.StartWithoutConnection := fun _ hc =>
  ⟨congrArg Host.Outcome.next (startCapture_of_not_connected hc), fun hinv => hinv.disconnected_idle hc⟩

/-- Settles O16: the outcome of START whose write fails, with the link after its purge and the failed write. -/
theorem startWriteFailure : Obligations.StartWriteFailure := by
  intro s sent kept hc hr hw
  refine ⟨_, [], s.epoch + 1, unsentAfter Config.token (.error sent kept), rfl, ?_, readBuffer_of_not_done (by simp)⟩
  refine congrArg Host.Outcome.next (?_ : startCapture s = _)
  rw [startCapture_of_write_error hc hr hw, linkWrite_linkPurge, forceIdle_env, hw]
  rfl

/-- Settles O17: START ends where the session has been forced to Idle. -/
theorem startAbandonsOnly : Obligations.StartAbandonsOnly := fun s hc hst hp =>
  ⟨[], s.epoch + 1, congrArg Host.Outcome.next (startCapture_of_abandon hc hst hp)⟩

/-! ### One POLL (R125 to R130) -/

theorem pollOnce_of_not_capturing {s : State} (hst : s.st ≠ .capturing) : pollOnce s = respond .evNoop s :=
  if_neg hst

/-- BR after the copy of a read, which leaves BR to the copy (R126). -/
theorem acceptBytes_linkRead_br {max : Nat} {d : List Byte} {s : State} (h : s.br.toNat ≤ 1024) :
    (acceptBytes d (linkRead max s)).br.toNat = s.br.toNat + copyCount d s.br :=
  acceptBytes_br_toNat d (linkRead max s) h

/-- A copy that does not fill RAW leaves the capture under way (R126). -/
theorem pollOnce_of_partial {s : State} (hst : s.st = .capturing) (hd : 1 ≤ (readBytes 256 s).length)
    (hbr : s.br.toNat + copyCount (readBytes 256 s) s.br < 1024) :
    pollOnce s = respond .evData (acceptBytes (readBytes 256 s) (linkRead 256 s)) := by
  rw [pollOnce_of_data hst hd]
  refine if_neg ?_
  rw [acceptBytes_linkRead_br (by omega), Config.frameBytes]
  omega

/-- A copy that fills RAW completes the capture (R127). -/
theorem pollOnce_of_full {s : State} (hst : s.st = .capturing) (hd : 1 ≤ (readBytes 256 s).length)
    (hbr : s.br.toNat + copyCount (readBytes 256 s) s.br = 1024) :
    pollOnce s = complete (acceptBytes (readBytes 256 s) (linkRead 256 s)) := by
  rw [pollOnce_of_data hst hd]
  exact if_pos ((acceptBytes_linkRead_br (by omega)).trans hbr)

/-- An empty POLL before the 100th counts and waits (R128). -/
theorem pollOnce_of_early_empty {s : State} (hst : s.st = .capturing) (hread : readBytes 256 s = [])
    (hrc : s.rc.toNat < 99) : pollOnce s = respond .evEmpty { linkRead 256 s with rc := s.rc + 1 } := by
  rw [pollOnce_of_empty hst (by simp [hread])]
  refine if_neg ?_
  show ¬ (s.rc + 1).toNat = 100
  bv_omega

/-- A read that returns nothing leaves the unread bytes and is recorded as such (R105). -/
theorem linkRead_of_empty {max : Nat} {s : State} (hread : readBytes max s = []) :
    linkRead max s =
      { s with
        env := readAnswered s.env
        link := { s.link with rx := unreadBytes s, log := s.link.log ++ [.read max []] } } := by
  have hrest := readBytes_append_rest max s
  rw [hread, List.nil_append, linkRead_link_rx] at hrest
  rw [linkRead, hread, hrest]

/-- RAW from offset BR on holds the bytes copied (R126). -/
theorem lookup_acceptBytes_stored (d : List Byte) (s : State) :
    ∀ i < copyCount d s.br, (acceptBytes d s).mem.lookup (s.br.toNat + i) = d[i]? := by
  intro i hi
  rw [lookup_acceptBytes, if_pos (by omega), Nat.add_sub_cancel_left]

theorem lookup_acceptBytes_outside (d : List Byte) (s : State) :
    ∀ a, a < s.br.toNat ∨ s.br.toNat + copyCount d s.br ≤ a →
      (acceptBytes d s).mem.lookup a = s.mem.lookup a := by
  intro a ha
  rw [lookup_acceptBytes, if_neg (by omega)]

/-- Settles O18: a POLL outside Capturing only answers. -/
theorem pollOutsideCapturing : Obligations.PollOutsideCapturing :=
  fun _ hst => congrArg Host.Outcome.next (pollOnce_of_not_capturing hst)

/-- Settles O19: the copy of POLL, and what the read leaves. -/
theorem pollStoresData : Obligations.PollStoresData := by
  rintro s _ _ hst rfl hd rfl hbr
  exact ⟨copyCount_pos hd (by omega), (acceptBytes (readBytes 256 s) (linkRead 256 s)).mem, (linkRead 256 s).link.rx,
    congrArg Host.Outcome.next (pollOnce_of_partial hst hd hbr), readBytes_append_rest 256 s,
    lookup_acceptBytes_stored (readBytes 256 s) (linkRead 256 s),
    lookup_acceptBytes_outside (readBytes 256 s) (linkRead 256 s)⟩

/-- Completion is the three engine words one after the other, then Done and EV_DONE (R127, R131). -/
theorem complete_runs_engines (u : State) :
    ∃ u1 u2 u3, exec .repack u = .next u1 ∧ exec .colorize u1 = .next u2 ∧ exec .upscale u2 = .next u3 ∧
      complete u = { u3 with st := .done, resp := 0x3 } :=
  ⟨repack u, colorize (repack u), runDecode u, rfl, rfl, rfl, rfl⟩

/-- Settles O20: the same copy, up to BR = 1024, and the decode of R127 behind it. -/
theorem pollCompletesCapture : Obligations.PollCompletesCapture := by
  rintro s _ _ hst rfl hd rfl hbr
  obtain ⟨u1, u2, u3, hrepack, hcolorize, hupscale, hcomplete⟩ :=
    complete_runs_engines (acceptBytes (readBytes 256 s) (linkRead 256 s))
  refine ⟨_, (acceptBytes (readBytes 256 s) (linkRead 256 s)).mem, (linkRead 256 s).link.rx, u1, u2, u3, ?_,
    readBytes_append_rest 256 s, lookup_acceptBytes_stored (readBytes 256 s) (linkRead 256 s),
    lookup_acceptBytes_outside (readBytes 256 s) (linkRead 256 s), hrepack, hcolorize, hupscale,
    congrArg Host.Outcome.next ((pollOnce_of_full hst hd hbr).trans hcomplete)⟩
  have hfull : (acceptBytes (readBytes 256 s) (linkRead 256 s)).br = 1024 := congrArg (BitVec.ofNat 11) hbr
  rw [← hfull]
  rfl

/-- Settles O21: the two outcomes of an empty read, by the count of the retries. -/
theorem pollEmptyAndTimeout : Obligations.PollEmptyAndTimeout := by
  intro s hst hread
  refine ⟨fun hrc => ?_, fun hrc => ?_⟩
  · refine congrArg Host.Outcome.next (?_ : pollOnce s = _)
    rw [pollOnce_of_early_empty hst hread (by omega), linkRead_of_empty hread]
    rfl
  · have hlast : s.rc + 1 = 100 := by bv_omega
    refine ⟨_, [], s.epoch + 1, rfl, congrArg Host.Outcome.next (?_ : pollOnce s = _), if_pos rfl,
      readBuffer_of_not_done (by simp)⟩
    rw [pollOnce_of_last_empty hst hread (by omega), linkRead_of_empty hread, hlast]
    rfl

/-! ### Consecutive POLLs (R138 (a), (c), (d)) -/

/-- POLL gives a next state from every state, so that n of them are an iterate. -/
theorem repeatExec_poll (n : Nat) (s : State) : repeatExec .poll n s = .next (pollOnce^[n] s) := by
  induction n generalizing s with
  | zero => rfl
  | succ n ih => exact ih (pollOnce s)

theorem counterInv_iterate_pollOnce {s : State} (h : CounterInv s) (n : Nat) : CounterInv (pollOnce^[n] s) := by
  induction n with
  | zero => exact h
  | succ n ih => rw [Function.iterate_succ_apply']; exact ih.pollOnce

/-- No POLL takes received bytes back (R126 to R130). -/
theorem br_le_pollOnce {s : State} (h : s.br.toNat ≤ 1024) : s.br.toNat ≤ (pollOnce s).br.toNat := by
  obtain ⟨-, e⟩ | ⟨-, -, -, e⟩ | ⟨-, -, -, e⟩ | ⟨-, -, -, e⟩ | ⟨-, -, -, e⟩ := pollOnce_cases s <;> rw [e]
  case inr.inl => rw [complete_br, acceptBytes_linkRead_br h]; omega
  case inr.inr.inl => rw [respond_br, acceptBytes_linkRead_br h]; omega
  all_goals exact Nat.le_refl _

theorem br_le_iterate_pollOnce {s : State} (h : CounterInv s) (n : Nat) :
    s.br.toNat ≤ (pollOnce^[n] s).br.toNat := by
  induction n with
  | zero => exact Nat.le_refl _
  | succ n ih =>
    rw [Function.iterate_succ_apply']
    exact ih.trans (br_le_pollOnce (counterInv_iterate_pollOnce h n).br_le)

/-- Settles O24: BR never falls, and progress is a monotone function of it (R28). -/
theorem progressIsMonotonic : Obligations.ProgressIsMonotonic := by
  intro s h n
  have hmono := br_le_iterate_pollOnce h n
  have hle := (counterInv_iterate_pollOnce h n).br_le
  refine ⟨_, repeatExec_poll n s, hmono, hle, ?_, progress_toNat hle⟩
  rw [progress_toNat h.br_le, progress_toNat hle]
  exact Nat.div_le_div_right (Nat.mul_le_mul_right 100 hmono)

theorem SilentPolls.readBytes_iterate {n : Nat} {s : State} (h : SilentPolls n s) {k : Nat} (hk : k < n) :
    readBytes 256 (pollOnce^[k] s) = [] := h k hk _ (repeatExec_poll k s)

/-- Up to the 99th empty POLL the capture goes on and RC counts the POLLs (R128). -/
theorem iterate_pollOnce_of_silent {s : State} (hst : s.st = .capturing) (hrc : s.rc = 0) (h : SilentPolls 100 s)
    (n : Nat) (hn : n ≤ 99) :
    (pollOnce^[n] s).st = .capturing ∧ (pollOnce^[n] s).rc.toNat = n ∧ (pollOnce^[n] s).br = s.br ∧
      (1 ≤ n → (pollOnce^[n] s).resp = 0x2) := by
  induction n with
  | zero => exact ⟨hst, congrArg BitVec.toNat hrc, rfl, fun h => absurd h (by decide)⟩
  | succ n ih =>
    obtain ⟨hst', hrc', hbr', -⟩ := ih (by omega)
    rw [Function.iterate_succ_apply', pollOnce_of_early_empty hst' (h.readBytes_iterate (by omega)) (by omega)]
    refine ⟨hst', ?_, hbr', fun _ => rfl⟩
    show ((pollOnce^[n] s).rc + 1).toNat = n + 1
    bv_omega

/-- Settles O22: the 100th empty POLL runs with RC = 99. -/
theorem hundredEmptyPollsTimeOut : Obligations.HundredEmptyPollsTimeOut := by
  intro s hst hrc hsilent
  have hcounts := iterate_pollOnce_of_silent hst hrc hsilent
  refine ⟨fun n hpos hn => ?_, ?_⟩
  · obtain ⟨hst', hrc', hbr', hresp⟩ := hcounts n hn
    exact ⟨_, repeatExec_poll n s, hst', hrc', hbr', hresp hpos⟩
  · obtain ⟨hst', hrc', hbr', -⟩ := hcounts 99 (Nat.le_refl 99)
    have hlast : pollOnce^[100] s = timeOut { linkRead 256 (pollOnce^[99] s) with rc := (pollOnce^[99] s).rc + 1 } :=
      (Function.iterate_succ_apply' pollOnce 99 s).trans
        (pollOnce_of_last_empty hst' (hsilent.readBytes_iterate (by decide)) hrc')
    refine ⟨_, repeatExec_poll 100 s, ?_⟩
    generalize pollOnce^[99] s = u at *
    rw [hlast, timeoutDiagnostic, if_pos (timeOut_st _), timeOut_br, timeOut_rc, linkRead_br, hbr']
    refine ⟨rfl, ?_, rfl, rfl, rfl, rfl, readBuffer_of_not_done (by simp)⟩
    show (u.rc + 1).toNat = 100
    bv_omega

/-- How many more POLLs a capture can stand at most: 100 for each byte not received, less the empty ones since the
last byte. -/
def pollsLeft (s : State) : Nat := 100 * (1024 - s.br.toNat) - s.rc.toNat

/-- A POLL in Capturing ends the capture or leaves fewer POLLs (R126 to R129): a byte received is worth more than the
99 empty POLLs that RC can have counted. -/
theorem pollOnce_ends_or_pollsLeft_lt {s : State} (h : CounterInv s) (hst : s.st = .capturing) :
    ((pollOnce s).st = .done ∨ (pollOnce s).st = .timedOut) ∨
      (pollOnce s).st = .capturing ∧ pollsLeft (pollOnce s) < pollsLeft s := by
  obtain ⟨hbr, hrc⟩ := h.capturing_lt hst
  obtain ⟨hno, -⟩ | ⟨-, -, -, e⟩ | ⟨-, hd, -, e⟩ | ⟨-, -, -, e⟩ | ⟨-, -, -, e⟩ := pollOnce_cases s
  case inl => exact absurd hst hno
  case inr.inl => exact .inl (.inl (by rw [e, complete_st]))
  case inr.inr.inl =>
    have hpos := copyCount_pos hd hbr
    refine .inr ⟨by rw [e]; exact hst, ?_⟩
    rw [e, pollsLeft, pollsLeft, respond_br, respond_rc, acceptBytes_rc, acceptBytes_linkRead_br h.br_le]
    omega
  case inr.inr.inr.inl => exact .inl (.inr (by rw [e, timeOut_st]))
  case inr.inr.inr.inr =>
    refine .inr ⟨by rw [e]; exact hst, ?_⟩
    have hnext : (s.rc + 1).toNat = s.rc.toNat + 1 := by bv_omega
    rw [e, pollsLeft, pollsLeft, respond_br, respond_rc, hnext, linkRead_br]
    omega

theorem iterate_pollOnce_ends (m : Nat) {s : State} (h : CounterInv s) (hst : s.st = .capturing)
    (hm : pollsLeft s ≤ m) : ∃ n ≤ m, (pollOnce^[n] s).st = .done ∨ (pollOnce^[n] s).st = .timedOut := by
  induction m generalizing s with
  | zero =>
    obtain ⟨hbr, hrc⟩ := h.capturing_lt hst
    rw [pollsLeft] at hm
    omega
  | succ m ih =>
    obtain hends | ⟨hgoes, hlt⟩ := pollOnce_ends_or_pollsLeft_lt h hst
    · exact ⟨1, by omega, hends⟩
    · obtain ⟨n, hn, hends⟩ := ih h.pollOnce hgoes (by omega)
      exact ⟨n + 1, by omega, hends⟩

/-- Settles O23: at most 102400 POLLs are left from the start. -/
theorem pollingEndsWithinBound : Obligations.PollingEndsWithinBound := by
  intro s h hst
  obtain ⟨n, hn, hends⟩ := iterate_pollOnce_ends 102400 h hst (by rw [pollsLeft]; omega)
  exact ⟨n, hn, _, repeatExec_poll n s, hends⟩

/-! ### Which steps change the session (R135 to R137) -/

@[simp] theorem connectPort_st (p : Nat) (s : State) : (connectPort p s).st = s.st := by
  obtain ⟨-, e⟩ | ⟨-, -, e⟩ | ⟨-, -, e⟩ | ⟨-, -, e⟩ := connectPort_cases p s <;> simp [e]

@[simp] theorem connectPort_br (p : Nat) (s : State) : (connectPort p s).br = s.br := by
  obtain ⟨-, e⟩ | ⟨-, -, e⟩ | ⟨-, -, e⟩ | ⟨-, -, e⟩ := connectPort_cases p s <;> simp [e]

/-- Of the seven operations only DISCONNECT, START and POLL can write ST or BR. -/
theorem exec_session_cases {i : Instr} {s t : State} (h : exec i s = .next t) :
    (t.st = s.st ∧ t.br = s.br) ∨ (i = .disconnect ∧ t = disconnectPort s) ∨ (i = .start ∧ t = startCapture s) ∨
      (i = .poll ∧ t = pollOnce s) := by
  cases i with
  | connect p => cases h; exact .inl ⟨connectPort_st p s, connectPort_br p s⟩
  | disconnect => cases h; exact .inr (.inl ⟨rfl, rfl⟩)
  | start => cases h; exact .inr (.inr (.inl ⟨rfl, rfl⟩))
  | poll => cases h; exact .inr (.inr (.inr ⟨rfl, rfl⟩))
  | repack | colorize | upscale => cases h; exact .inl ⟨rfl, rfl⟩

/-- A step keeps ST and BR, or it takes a reset, or a host word that decodes to DISCONNECT, START or POLL. -/
theorem step_session_cases {s t : State} (h : step s = .next t) :
    (t.st = s.st ∧ t.br = s.br) ∨
    s.engine = none ∧ ∃ rest,
      (s.host = .reset :: rest ∧ t = resetBlock (takeHostEvent rest s)) ∨
      ∃ w, s.host = .command w :: rest ∧
        ((decode .host w = .ok .disconnect ∧ t = disconnectPort (takeHostEvent rest s)) ∨
          (decode .host w = .ok .start ∧ t = startCapture (takeHostEvent rest s)) ∨
          (decode .host w = .ok .poll ∧ t = pollOnce (takeHostEvent rest s))) := by
  obtain ⟨w, i, -, hi, hexec⟩ | ⟨-, -, rfl⟩ | ⟨rest, he, hh, rfl⟩ | ⟨w, rest, i, he, hh, hi, hexec⟩ |
    ⟨w, rest, e, -, -, -, rfl⟩ := step_cases h
  case inl =>
    have hport := port_of_decodeEngine hi
    obtain hkeeps | ⟨rfl, -⟩ | ⟨rfl, -⟩ | ⟨rfl, -⟩ := exec_session_cases hexec
    · exact .inl hkeeps
    all_goals cases hport
  case inr.inl => exact .inl ⟨rfl, rfl⟩
  case inr.inr.inl => exact .inr ⟨he, rest, .inl ⟨hh, rfl⟩⟩
  case inr.inr.inr.inl =>
    obtain hkeeps | ⟨rfl, ht⟩ | ⟨rfl, ht⟩ | ⟨rfl, ht⟩ := exec_session_cases hexec
    · exact .inl hkeeps
    · exact .inr ⟨he, rest, .inr ⟨w, hh, .inl ⟨hi, ht⟩⟩⟩
    · exact .inr ⟨he, rest, .inr ⟨w, hh, .inr (.inl ⟨hi, ht⟩)⟩⟩
    · exact .inr ⟨he, rest, .inr ⟨w, hh, .inr (.inr ⟨hi, ht⟩)⟩⟩
  case inr.inr.inr.inr => exact .inl ⟨rfl, rfl⟩

/-- (h) of R30: a session that is not Idle has a connection. -/
theorem CounterInv.conn_of_not_idle {s : State} (h : CounterInv s) (hst : s.st ≠ .idle) : s.conn = true := by
  cases hc : s.conn with
  | false => exact absurd (h.disconnected_idle hc) hst
  | true => rfl

/-- DISCONNECT leaves Idle in every state with the invariants (R110). -/
theorem disconnectPort_st {s : State} (h : CounterInv s) : (disconnectPort s).st = .idle := by
  obtain ⟨-, e⟩ | ⟨hc, e⟩ := disconnectPort_cases s <;> rw [e]
  · rfl
  · exact h.disconnected_idle hc

/-- Settles O49: in Done and TimedOut a POLL only answers, and CONNECT meets a connection. -/
theorem terminalStatesLeftOnly : Obligations.TerminalStatesLeftOnly := by
  intro s h hst
  have hcap : s.st ≠ .capturing := by obtain hst | hst := hst <;> simp [hst]
  have hconn : s.conn = true := h.conn_of_not_idle (by obtain hst | hst := hst <;> simp [hst])
  have hrestart : s.st = .capturing → s.params.startWhileCapturing = .restart := fun hc => absurd hc hcap
  refine ⟨⟨_, rfl, disconnectPort_st h⟩, fun hw => ⟨_, rfl, ?_⟩, fun sent kept hw => ⟨_, rfl, ?_⟩,
    congrArg Host.Outcome.next (pollOnce_of_not_capturing hcap),
    fun p => congrArg Host.Outcome.next (connectPort_of_connected hconn), fun t hstep hne => ?_⟩
  · rw [startCapture_of_write_ok hconn hrestart hw, respond_st]
  · rw [startCapture_of_write_error hconn hrestart hw]
    rfl
  · obtain ⟨hkept, -⟩ | ⟨he, rest, ⟨hh, -⟩ | ⟨w, hh, ⟨hi, -⟩ | ⟨hi, -⟩ | ⟨-, rfl⟩⟩⟩ := step_session_cases hstep
    · exact absurd hkept hne
    · exact ⟨he, rest, .inl hh⟩
    · exact ⟨he, rest, .inr ⟨w, hh, .inl hi⟩⟩
    · exact ⟨he, rest, .inr ⟨w, hh, .inr hi⟩⟩
    · refine absurd ?_ hne
      rw [pollOnce_of_not_capturing (s := takeHostEvent rest s) hcap]
      rfl

theorem imageHandoff_disconnectPort (s : State) : imageHandoff (disconnectPort s) = false := by
  rw [imageHandoff, disconnectPort_resp_ok]
  rfl

theorem imageHandoff_startCapture (s : State) : imageHandoff (startCapture s) = false := by
  obtain ⟨-, e⟩ | ⟨-, -, -, e⟩ | ⟨-, -, _, _, -, e⟩ | ⟨-, -, -, e⟩ := startCapture_cases s <;> rw [e] <;> rfl

/-- A START with a connection begins from BR = 0 and never ends in Done (R121, R123, R124). -/
theorem startCapture_restarts {s : State} (hc : s.conn = true) :
    (startCapture s).br = 0 ∧ (startCapture s).st ≠ .done := by
  obtain ⟨hno, -⟩ | ⟨-, -, -, e⟩ | ⟨-, -, _, _, -, e⟩ | ⟨-, -, -, e⟩ := startCapture_cases s
  · simp [hc] at hno
  all_goals simp [e]

/-- A POLL in Capturing does not lead to Idle. -/
theorem pollOnce_st_ne_idle {s : State} (h : CounterInv s) (hst : s.st = .capturing) : (pollOnce s).st ≠ .idle := by
  obtain (hend | hend) | ⟨hend, -⟩ := pollOnce_ends_or_pollsLeft_lt h hst <;> simp [hend]

/-- Settles O50: DISCONNECT and START force the session to Idle before anything else, and a POLL neither ends in Idle
nor takes bytes back. -/
theorem captureCancelledOnly : Obligations.CaptureCancelledOnly := by
  intro s h hst
  have hconn := h.conn_of_capturing hst
  refine ⟨?_, fun t hstep hlost => ?_⟩
  · rintro _ (rfl | rfl)
    · refine ⟨_, rfl, ?_, (disconnectPort_forgets hconn).1, imageHandoff_disconnectPort s,
        readBuffer_of_not_done (by rw [disconnectPort_st h]; decide)⟩
      rw [disconnectPort_of_connected hconn]
      rfl
    · obtain ⟨hbr, hdone⟩ := startCapture_restarts hconn
      exact ⟨_, rfl, hbr, (startCapture_forgets hconn).1, imageHandoff_startCapture s, readBuffer_of_not_done hdone⟩
  · obtain ⟨hkept, hbr⟩ | ⟨he, rest, ⟨hh, rfl⟩ | ⟨w, hh, ⟨hi, rfl⟩ | ⟨hi, rfl⟩ | ⟨-, rfl⟩⟩⟩ :=
      step_session_cases hstep
    · simp [hkept, hst, hbr] at hlost
    · exact ⟨rfl, he, rest, .inl hh⟩
    · exact ⟨imageHandoff_disconnectPort _, he, rest, .inr ⟨w, hh, .inl hi⟩⟩
    · exact ⟨imageHandoff_startCapture _, he, rest, .inr ⟨w, hh, .inr hi⟩⟩
    · have hready : CounterInv (takeHostEvent rest s) := counterInv_stepClosed.hostEvent hh h
      obtain hidle | hfewer := hlost
      · exact absurd hidle (pollOnce_st_ne_idle hready hst)
      · exact absurd hfewer (Nat.not_lt.2 (br_le_pollOnce hready.br_le))

/-! ### The transition table (R135)

A command of the host runs after its word has been taken, which none of the table's conditions speaks of. -/

section
variable {s : State} (rest : List HostEvent)

theorem connectPort_tableRow (h : CounterInv s) (p : Nat) :
    TableRow s (some (.connect p)) (connectPort p (takeHostEvent rest s)) := by
  have hidle := fun hc => h.idle_zero (h.disconnected_idle hc)
  obtain ⟨hc, e⟩ | ⟨hc, ha, e⟩ | ⟨hc, ha, e⟩ | ⟨hc, ha, e⟩ := connectPort_cases p (takeHostEvent rest s) <;>
    rw [takeHostEvent_conn] at hc
  · exact .connectAgain p _ hc (by simp [e, registers, hc, responseCode])
  · exact .connectUnavailable p _ (h.disconnected_idle hc) hc ha
      (by simp [e, registers, h.disconnected_idle hc, hidle hc, hc, responseCode])
  · exact .connectRejected p _ (h.disconnected_idle hc) hc ha
      (by simp [e, registers, h.disconnected_idle hc, hidle hc, hc, responseCode])
  · exact .connectOk p _ (h.disconnected_idle hc) hc ha
      (by simp [e, registers, h.disconnected_idle hc, hidle hc, responseCode])

theorem disconnectPort_tableRow (h : CounterInv s) :
    TableRow s (some .disconnect) (disconnectPort (takeHostEvent rest s)) := by
  obtain ⟨hc, e⟩ | ⟨hc, e⟩ := disconnectPort_cases (takeHostEvent rest s) <;> rw [takeHostEvent_conn] at hc
  · exact .disconnect _ hc (by rw [e]; rfl)
  · have hidle := h.disconnected_idle hc
    exact .disconnectUnconnected _ hidle hc (by simp [e, registers, hidle, h.idle_zero hidle, hc, responseCode])

theorem startCapture_tableRow (h : CounterInv s) (hr : s.params.startWhileCapturing = .restart) :
    TableRow s (some .start) (startCapture (takeHostEvent rest s)) := by
  obtain ⟨hc, e⟩ | ⟨-, -, hp, -⟩ | ⟨hc, -, sent, kept, hw, e⟩ | ⟨hc, -, hw, e⟩ :=
    startCapture_cases (takeHostEvent rest s)
  case inr.inl =>
    rw [takeHostEvent_params, hr] at hp
    cases hp
  all_goals rw [takeHostEvent_conn] at hc
  · have hidle := h.disconnected_idle hc
    exact .startUnconnected _ hidle hc (by simp [e, registers, hidle, h.idle_zero hidle, hc, responseCode])
  · exact .startFails sent kept _ hc hw (by simp [e, registers, hc, responseCode])
  · exact .startOk _ hc hw (by simp [e, registers, hc, responseCode])

/-- The three rows of a POLL outside Capturing, with the counters R30 gives there. -/
theorem respond_noop_tableRow {t : State} (h : CounterInv s) (hst : s.st ≠ .capturing)
    (ht : registers t = (s.st, s.conn, s.br, s.rc, 0x5)) : TableRow s (some .poll) t := by
  cases hs : s.st with
  | idle =>
    obtain ⟨hbr, hrc⟩ := h.idle_zero hs
    exact .pollIdle _ hs (by rw [ht, hs, hbr, hrc])
  | capturing => exact absurd hs hst
  | done =>
    have hbr : s.br = 1024 := BitVec.eq_of_toNat_eq (h.done_iff.1 hs)
    exact .pollDone _ hs (by rw [ht, hs, hbr, h.done_rc hs])
  | timedOut =>
    have hrc : s.rc = 100 := BitVec.eq_of_toNat_eq (h.timedOut_iff.2 hs)
    exact .pollTimedOut _ hs (by rw [ht, hs, hrc])

theorem pollOnce_tableRow (h : CounterInv s) : TableRow s (some .poll) (pollOnce (takeHostEvent rest s)) := by
  by_cases hst : s.st = .capturing
  · obtain ⟨hbr, hrc⟩ := h.capturing_lt hst
    by_cases hd : 1 ≤ (readBytes 256 s).length
    · have hroom := copyCount_le_room (readBytes 256 s) s.br
      by_cases hfull : s.br.toNat + copyCount (readBytes 256 s) s.br = 1024
      · have e := pollOnce_of_full (s := takeHostEvent rest s) hst hd hfull
        have hbr' : (pollOnce (takeHostEvent rest s)).br = 1024 := by rw [e]; exact congrArg (BitVec.ofNat 11) hfull
        refine .pollComplete _ _ _ hst rfl rfl hd hfull ?_
        rw [registers, hbr', e]
        simp [responseCode]
      · have hpart : s.br.toNat + copyCount (readBytes 256 s) s.br < 1024 := by omega
        have e := pollOnce_of_partial (s := takeHostEvent rest s) hst hd hpart
        refine .pollData _ _ _ hst rfl rfl hd hpart ?_
        rw [e, ← hst]
        rfl
    · have hread : readBytes 256 s = [] := List.length_eq_zero_iff.1 (by omega)
      by_cases hlast : s.rc.toNat + 1 = 100
      · have e := pollOnce_of_last_empty (s := takeHostEvent rest s) hst hread (Nat.succ.inj hlast)
        have hrc' : s.rc + 1 = 100 := by bv_omega
        refine .pollTimeout _ hst hread hlast ?_
        rw [e, ← hrc']
        rfl
      · have e := pollOnce_of_early_empty (s := takeHostEvent rest s) hst hread (by rw [takeHostEvent_rc]; omega)
        refine .pollEmpty _ hst hread (by omega) ?_
        rw [e, ← hst]
        rfl
  · refine respond_noop_tableRow h hst ?_
    rw [pollOnce_of_not_capturing (s := takeHostEvent rest s) hst]
    rfl

end

/-- Settles O47: each host command has its rows, and the rest of a step does not write ST. -/
theorem stepFollowsTransitionTable : Obligations.StepFollowsTransitionTable := by
  refine ⟨fun s w rest h hr he hh => ?_, fun s t hstep hne => ?_⟩
  · rw [step_of_hostWord he hh]
    cases hi : decode .host w with
    | error e => exact ⟨_, runHostWord_of_error hi _, .illegal _ rfl⟩
    | ok i =>
      have hport := port_of_decodeHost hi
      rw [runHostWord_of_ok hi]
      cases i with
      | connect p => exact ⟨_, rfl, connectPort_tableRow rest h p⟩
      | disconnect => exact ⟨_, rfl, disconnectPort_tableRow rest h⟩
      | start => exact ⟨_, rfl, startCapture_tableRow rest h hr⟩
      | poll => exact ⟨_, rfl, pollOnce_tableRow rest h⟩
      | repack | colorize | upscale => cases hport
  · obtain ⟨hkept, -⟩ | ⟨he, rest, ⟨hh, -⟩ | ⟨w, hh, -⟩⟩ := step_session_cases hstep
    · exact absurd hkept hne
    · exact ⟨he, rest, .inl hh⟩
    · exact ⟨he, rest, .inr ⟨w, hh⟩⟩

end Sys2Proof.Machine

/-! REPACK (42_bit_transpose.md): the bits and sums of a byte, where each pixel stands in RAW and in CANON, what the
operation does to the pixels and to the count of set bits, and the loops of R151 against the closed form. -/

namespace Sys2Proof.Machine

/-! ### The bits of a byte -/

/-- A bit as a number, by division (R13). -/
theorem toNat_bitOf (v : Byte) (i : Nat) : (bitOf v i).toNat = v.toNat / 2 ^ i % 2 := Nat.toNat_testBit v.toNat i

theorem sum_map_range_eight (f : Nat → Nat) :
    ((List.range 8).map f).sum = f 0 + f 1 + f 2 + f 3 + f 4 + f 5 + f 6 + f 7 := by
  simp [List.range_succ, Nat.add_assoc]

theorem byte_toNat_eq_sum (v : Byte) : v.toNat = ((List.range 8).map fun i => (bitOf v i).toNat * 2 ^ i).sum := by
  have hv := v.isLt
  simp only [sum_map_range_eight, toNat_bitOf]
  omega

/-- The byte packed from eight bits, as the sum R155 writes. -/
theorem toNat_packMsbFirst (f : Nat → Bool) :
    (packMsbFirst f).toNat = ((List.range 8).map fun j => (f j).toNat * 2 ^ (7 - j)).sum := by
  have hterms : ((List.range 8).map fun j => (f j).toNat * 2 ^ (7 - j)) =
      (List.range 8).map fun j => (bitOf (packMsbFirst f) (7 - j)).toNat * 2 ^ (7 - j) :=
    List.map_congr_left fun j hj => by rw [bitOf_packMsbFirst f (List.mem_range.1 hj)]
  rw [byte_toNat_eq_sum, hterms]
  simp only [sum_map_range_eight, Nat.reduceSub, Nat.sub_zero]
  omega

/-- The byte R151 ORs in has its bit at one position only. -/
theorem bitOf_or_single (v : Byte) (b : Bool) {c i : Nat} (hi : i < 8) :
    bitOf (v ||| (BitVec.ofBool b).setWidth 8 <<< c) i = (bitOf v i || (decide (i = c) && b)) := by
  unfold bitOf
  simp only [BitVec.getLsbD_or, BitVec.getLsbD_shiftLeft, BitVec.getLsbD_setWidth, BitVec.getLsbD_ofBool]
  by_cases hlt : i < c
  · simp [hlt, show i ≠ c by omega]
  · by_cases heq : i = c
    · subst heq; simp [hi]
    · simp [heq, show i - c ≠ 0 by omega]

/-! ### Where a pixel stands (R152, R153, R154) -/

theorem rawOffset_lt {x y : Nat} (hx : x < 128) (hy : y < 64) : rawOffset x y < 1024 := by
  simp only [rawOffset, Config.pageH, Config.rawStride]
  omega

theorem canonOffset_lt {x r : Nat} (hx : x < 128) (hr : r < 64) : canonOffset x r < 1024 := by
  simp only [canonOffset, Config.canonStride]
  omega

theorem canonBit_lt (x : Nat) : canonBit x < 8 := by
  unfold canonBit
  omega

/-- The pixel at bit `b` of RAW offset `a` is in column `a mod 128` and row `8 (a div 128) + b`. -/
theorem rawAddress_eq_iff {x y a b : Nat} (hx : x < 128) (hb : b < 8) :
    rawOffset x y = a ∧ rawBit y = b ↔ x = a % 128 ∧ y = a / 128 * 8 + b := by
  simp only [rawOffset, rawBit, Config.pageH, Config.rawStride]
  omega

/-- The pixel at bit `b` of CANON offset `a` is in column `8 (a mod 16) + (7 − b)` of canonical row `a div 16`. -/
theorem canonAddress_eq_iff {x r a b : Nat} (hx : x < 128) (hb : b < 8) :
    canonOffset x r = a ∧ canonBit x = b ↔ x = a % 16 * 8 + (7 - b) ∧ r = a / 16 := by
  simp only [canonOffset, canonBit, Config.canonStride]
  omega

/-- The vertical flip is its own inverse (R56). -/
theorem flipRow_eq_iff {y r : Nat} (hy : y < 64) (hr : r < 64) : flipRow y = r ↔ y = flipRow r := by
  simp only [flipRow, Config.frameH]
  omega

theorem flipRow_lt (r : Nat) : flipRow r < 64 := by
  simp only [flipRow, Config.frameH]
  omega

/-- Settles O26: each address is that of the one pixel its inverse formula names. -/
theorem repackAddressesBijective : Obligations.RepackAddressesBijective := by
  refine ⟨fun x hx y hy => ?_, fun a ha b hb => ?_, fun a ha b hb => ?_⟩
  · exact ⟨rawOffset_lt hx hy, Nat.mod_lt y (by decide), canonOffset_lt hx (flipRow_lt y), canonBit_lt x⟩
  · have hx : a % 128 < 128 := Nat.mod_lt a (by decide)
    obtain ⟨hoffset, hbit⟩ := (rawAddress_eq_iff hx hb).2 ⟨rfl, rfl⟩
    exact ⟨_, hx, _, by omega, hoffset, hbit, fun x' hx' _ _ ho' hb' => (rawAddress_eq_iff hx' hb).1 ⟨ho', hb'⟩⟩
  · have hx : a % 16 * 8 + (7 - b) < 128 := by omega
    have hr : a / 16 < 64 := by omega
    have hflip : flipRow (flipRow (a / 16)) = a / 16 := (flipRow_eq_iff (flipRow_lt _) hr).2 rfl
    obtain ⟨hoffset, hbit⟩ := (canonAddress_eq_iff (r := a / 16) hx hb).2 ⟨rfl, rfl⟩
    refine ⟨_, hx, flipRow (a / 16), flipRow_lt _, by rw [hflip, hoffset], hbit, fun x' hx' y' hy' ho' hb' => ?_⟩
    obtain ⟨hxeq, hreq⟩ := (canonAddress_eq_iff hx' hb).1 ⟨ho', hb'⟩
    exact ⟨hxeq, (flipRow_eq_iff hy' hr).1 hreq⟩

/-! ### The pixels of CANON after REPACK (R155, R157) -/

/-- A CanonicalBitmap is given by its pixels. -/
theorem canonBytes_ext {f g : Nat → Byte} (h : ∀ x < 128, ∀ r < 64, canonPixel f x r = canonPixel g x r) {a : Nat}
    (ha : a < 1024) : f a = g a := by
  refine byte_ext fun b hb => ?_
  have hx : a % 16 * 8 + (7 - b) < 128 := by omega
  obtain ⟨hoffset, hbit⟩ := (canonAddress_eq_iff (r := a / 16) hx hb).2 ⟨rfl, rfl⟩
  have hpixel := h _ hx (a / 16) (by omega)
  rwa [canonPixel, canonPixel, hoffset, hbit] at hpixel

/-- `canonpix(x, r) = rawpix(x, 63 − r)` between the state before REPACK and the state after (R155). -/
theorem canonPixel_repack (s : State) {x r : Nat} (hx : x < 128) (hr : r < 64) :
    canonPixel (bufferBytes Config.canonBase (repack s)) x r =
      rawPixel (bufferBytes Config.rawBase s) x (63 - r) := by
  rw [← canonPixel_repackByte _ hx, canonPixel, bufferBytes_apply, byteAt_repack_canon s (canonOffset_lt hx hr),
    ← canonPixel]

/-- `rawpix(x, y) = canonpix(x, 63 − y)` between the state before REPACK and the state after (R157). -/
theorem rawPixel_eq_canonPixel_repack (s : State) {x y : Nat} (hx : x < 128) (hy : y < 64) :
    rawPixel (bufferBytes Config.rawBase s) x y =
      canonPixel (bufferBytes Config.canonBase (repack s)) x (63 - y) := by
  rw [canonPixel_repack s hx (by omega), show 63 - (63 - y) = y by omega]

theorem sameOutsideBuffers_repack (s : State) : SameOutsideBuffers s (repack s) := by constructor <;> simp

/-- The CANON byte at row r, byte column q as the sum of R155. -/
theorem toNat_repackByte (raw : Nat → Byte) {r q : Nat} (hq : q < 16) :
    (repackByte raw (r * 16 + q)).toNat =
      ((List.range 8).map fun j =>
        (raw ((8 * q + j) + (63 - r) / 8 * 128)).toNat / 2 ^ ((63 - r) % 8) % 2 * 2 ^ (7 - j)).sum := by
  have hrow : (r * 16 + q) / 16 = r := by omega
  have hcolumn : (r * 16 + q) % 16 = q := by omega
  simp only [repackByte, toNat_packMsbFirst, rawPixel, toNat_bitOf, rawOffset, rawBit, flipRow, Config.canonStride,
    Config.frameH, Config.pageH, Config.rawStride, hrow, hcolumn]

/-- Settles O25: REPACK fills CANON with the bytes of the closed form, and nothing else. -/
theorem repackResult : Obligations.RepackResult := by
  intro s
  refine ⟨repack s, rfl, sameOutsideBuffers_repack s, fun a ha => lookup_repack_outside s ha,
    fun r hr q hq => ⟨_, lookup_repack_canon s (by omega), ?_⟩, fun x hx r hr => ?_⟩
  · exact toNat_repackByte _ hq
  · exact canonPixel_repack s hx hr

/-- Settles O28: a RAW byte is the sum of its eight bits, each of them a pixel of CANON. -/
theorem repackInvertible : Obligations.RepackInvertible := by
  intro s
  refine ⟨repack s, rfl, fun x hx y hy => rawPixel_eq_canonPixel_repack s hx hy, fun x hx band hband => ?_⟩
  rw [byte_toNat_eq_sum, List.map_congr_left fun i hi => ?_]
  have hi : i < 8 := List.mem_range.1 hi
  obtain ⟨hoffset, hbit⟩ := (rawAddress_eq_iff (y := 8 * band + i) (a := x + band * 128) hx hi).2 (by omega)
  rw [← rawPixel_eq_canonPixel_repack s hx (by omega), rawPixel, hoffset, hbit]
  rfl

/-! ### The number of set bits (R154) -/

/-- The number of set pixels of a picture of `w` columns and `h` rows. -/
def setPixels (w h : Nat) (pixel : Nat → Nat → Bool) : Nat :=
  ((Finset.range w ×ˢ Finset.range h).filter fun p => pixel p.1 p.2).card

theorem setPixels_congr {w h : Nat} {p q : Nat → Nat → Bool} (hpq : ∀ x < w, ∀ y < h, p x y = q x y) :
    setPixels w h p = setPixels w h q := by
  refine congrArg Finset.card (Finset.filter_congr fun xy hxy => ?_)
  obtain ⟨hx, hy⟩ := Finset.mem_product.1 hxy
  rw [hpq _ (Finset.mem_range.1 hx) _ (Finset.mem_range.1 hy)]

/-- The set bits of `n` bytes are the set pixels of the picture with a row for each bit position. -/
theorem setBits_eq_setPixels (n : Nat) (bytes : Nat → Byte) :
    setBits n bytes = setPixels n 8 fun a i => bitOf (bytes a) i := by
  have hbyte : ∀ v : Byte, ((List.range 8).filter fun i => bitOf v i).length =
      ((Finset.range 8).filter fun i => bitOf v i).card := by
    simp [Finset.card, Finset.filter, Finset.range, Multiset.range]
  rw [setPixels, Finset.card_filter, Finset.sum_product, setBits]
  simp only [← Finset.card_filter, hbyte]
  rfl

/-- A map from the pixels one-to-one onto the bits of a buffer counts the set bits by pixels. -/
theorem setBits_eq_setPixels_of_bijective {w h n : Nat} {offset bit : Nat → Nat → Nat} (bytes : Nat → Byte)
    (hmaps : ∀ x < w, ∀ y < h, offset x y < n ∧ bit x y < 8)
    (hbij : ∀ a < n, ∀ b < 8, ∃ x < w, ∃ y < h, offset x y = a ∧ bit x y = b ∧
      ∀ x' < w, ∀ y' < h, offset x' y' = a → bit x' y' = b → x' = x ∧ y' = y) :
    setBits n bytes = setPixels w h fun x y => bitOf (bytes (offset x y)) (bit x y) := by
  rw [setBits_eq_setPixels]
  symm
  refine Finset.card_bij (fun p _ => (offset p.1 p.2, bit p.1 p.2)) ?_ ?_ ?_
  · rintro ⟨x, y⟩ hp
    simp only [Finset.mem_filter, Finset.mem_product, Finset.mem_range] at hp ⊢
    obtain ⟨⟨hx, hy⟩, hset⟩ := hp
    exact ⟨hmaps x hx y hy, hset⟩
  · rintro ⟨x₁, y₁⟩ h₁ ⟨x₂, y₂⟩ h₂ heq
    simp only [Finset.mem_filter, Finset.mem_product, Finset.mem_range] at h₁ h₂
    obtain ⟨⟨hx₁, hy₁⟩, -⟩ := h₁
    obtain ⟨⟨hx₂, hy₂⟩, -⟩ := h₂
    obtain ⟨hoffset, hbit⟩ := Prod.mk.inj heq
    obtain ⟨ha, hb⟩ := hmaps x₂ hx₂ y₂ hy₂
    obtain ⟨x, -, y, -, -, -, honly⟩ := hbij _ ha _ hb
    obtain ⟨rfl, rfl⟩ := honly x₁ hx₁ y₁ hy₁ hoffset hbit
    obtain ⟨rfl, rfl⟩ := honly x₂ hx₂ y₂ hy₂ rfl rfl
    rfl
  · rintro ⟨a, b⟩ hp
    simp only [Finset.mem_filter, Finset.mem_product, Finset.mem_range] at hp
    obtain ⟨⟨ha, hb⟩, hset⟩ := hp
    obtain ⟨x, hx, y, hy, rfl, rfl, -⟩ := hbij a ha b hb
    refine ⟨(x, y), ?_, rfl⟩
    simp only [Finset.mem_filter, Finset.mem_product, Finset.mem_range]
    exact ⟨⟨hx, hy⟩, hset⟩

/-- Settles O27: by the bijections of R154 both counts are counts of pixels, and REPACK moves pixels. -/
theorem repackPreservesSetBits : Obligations.RepackPreservesSetBits := by
  intro s
  obtain ⟨hmaps, hraw, hcanon⟩ := repackAddressesBijective
  have hrawMaps : ∀ x < 128, ∀ y < 64, rawOffset x y < 1024 ∧ rawBit y < 8 := fun x hx y hy =>
    (hmaps x hx y hy).imp_right And.left
  have hcanonMaps : ∀ x < 128, ∀ y < 64, canonOffset x (flipRow y) < 1024 ∧ canonBit x < 8 := fun x hx y hy =>
    (hmaps x hx y hy).2.2
  refine ⟨repack s, rfl, ?_⟩
  rw [setBits_eq_setPixels_of_bijective (bufferBytes Config.canonBase (repack s)) hcanonMaps hcanon,
    setBits_eq_setPixels_of_bijective (bufferBytes Config.rawBase s) hrawMaps hraw]
  exact setPixels_congr fun x hx y hy => (rawPixel_eq_canonPixel_repack s hx hy).symm

/-! ### Loops, and one write after another -/

theorem forRange_succ (n : Nat) (body : Nat → State → State) (s : State) :
    forRange (n + 1) body s = body n (forRange n body s) := by
  simp [forRange, List.range_succ]

/-- What holds before a loop and is carried from each round to the next holds after the loop. -/
theorem forRange_induction {P : Nat → State → Prop} {n : Nat} {body : Nat → State → State} {s : State} (h0 : P 0 s)
    (hstep : ∀ i < n, ∀ t, P i t → P (i + 1) (body i t)) : P n (forRange n body s) := by
  induction n with
  | zero => exact h0
  | succ n ih =>
    rw [forRange_succ]
    exact hstep n n.lt_succ_self _ (ih fun i hi => hstep i (Nat.lt_succ_of_lt hi))

/-- States that differ in the buffers only are equal when their memories have the canonical form and read alike. -/
theorem withMem_ext {s : State} {m m' : Memory} (hm : Memory.wf m) (hm' : Memory.wf m')
    (h : ∀ a, m.lookup a = m'.lookup a) : ({ s with mem := m } : State) = { s with mem := m' } := by
  rw [wf_ext hm hm' h]

theorem lookup_memFill (b n : Nat) (f : Nat → Byte) (s : State) (a : Nat) :
    (memFill b n f s).mem.lookup a = if b ≤ a ∧ a < b + n then some (f (a - b)) else s.mem.lookup a := by
  split
  · obtain ⟨i, rfl⟩ := Nat.exists_eq_add_of_le (show b ≤ a by omega)
    rw [Nat.add_sub_cancel_left]
    exact lookup_fill_inside (by omega)
  · exact lookup_fill_outside (by omega)

theorem lookup_memWrite_byte (a : Nat) (v : Byte) (s : State) (c : Nat) :
    (memWrite a [v] s).mem.lookup c = if c = a then some v else s.mem.lookup c := by
  rw [memWrite_mem, lookup_write]
  by_cases hc : c = a
  · subst hc; simp
  · rw [if_neg (by simp; omega), if_neg hc]

theorem memFill_zero {s : State} (hm : Memory.wf s.mem) (b : Nat) (f : Nat → Byte) : memFill b 0 f s = s :=
  withMem_ext (s := s) (wf_memFill (f := f) hm (by simp)) hm fun a => by
    rw [← memFill_mem, lookup_memFill, if_neg (by omega)]

/-- A byte written over or just after a fill is a fill: the byte at its offset, the others as before. -/
theorem memWrite_memFill {s : State} (hm : Memory.wf s.mem) {b n n' i : Nat} (hb : ∀ j < n', mapped (b + j) = true)
    {f g : Nat → Byte} (hi : i < n') (hle : n ≤ n') (hfill : ∀ j < n', j ≠ i → j < n ∧ g j = f j) :
    memWrite (b + i) [g i] (memFill b n f s) = memFill b n' g s := by
  have hwf := wf_memFill (f := f) hm fun j hj => hb j (Nat.lt_of_lt_of_le hj hle)
  refine withMem_ext (s := s) (wf_write hwf (by simpa using hb i hi)) (wf_memFill hm hb) fun a => ?_
  rw [← memWrite_mem, ← memFill_mem (s := s), lookup_memWrite_byte, lookup_memFill, lookup_memFill]
  by_cases ha : a = b + i
  · subst ha
    simp [hi]
  · rw [if_neg ha]
    by_cases hin : b ≤ a ∧ a < b + n'
    · obtain ⟨hlt, heq⟩ := hfill (a - b) (by omega) (by omega)
      rw [if_pos hin, if_pos (by omega), heq]
    · rw [if_neg hin, if_neg (by omega)]

/-- A loop that writes a run byte by byte in ascending order fills it (R14). -/
theorem forRange_memWrite {s : State} (hm : Memory.wf s.mem) {b n : Nat} (hb : ∀ j < n, mapped (b + j) = true)
    (f : Nat → Byte) : forRange n (fun i => memWrite (b + i) [f i]) s = memFill b n f s := by
  refine forRange_induction (P := fun k t => t = memFill b k f s) (memFill_zero hm b f).symm fun k hk t ht => ?_
  rw [ht]
  exact memWrite_memFill hm (fun j hj => hb j (by omega)) k.lt_succ_self k.le_succ fun j hj hne => ⟨by omega, rfl⟩

/-! ### The loops of REPACK (R151) -/

/-- The CanonicalBitmap after the first `k` rounds of R151's loops, row by row of the RawFrame: the pixels reached hold
their source bits, the others are still 0. -/
def PixelsRepacked (raw : Nat → Byte) (k : Nat) (canon : Nat → Byte) : Prop :=
  ∀ x < 128, ∀ y < 64, canonPixel canon x (flipRow y) = (decide (y * 128 + x < k) && rawPixel raw x y)

theorem pixelsRepacked_zero (raw : Nat → Byte) : PixelsRepacked raw 0 fun _ => 0 := by
  intro x hx y hy
  simp [canonPixel, bitOf]

/-- All 8192 pixels reached, the CanonicalBitmap is that of the closed form. -/
theorem eq_repackByte_of_pixelsRepacked {raw canon : Nat → Byte} (h : PixelsRepacked raw 8192 canon) :
    ∀ a < 1024, canon a = repackByte raw a := by
  refine fun a => canonBytes_ext fun x hx r hr => ?_
  have hflip : flipRow (63 - r) = r := (flipRow_eq_iff (by omega) hr).2 rfl
  have hpixel := h x hx (63 - r) (by omega)
  rw [hflip] at hpixel
  rw [hpixel, canonPixel_repackByte raw hx, decide_eq_true (by omega), Bool.true_and]

/-- The CANON byte of pixel (x, y) with its source bit ORed in, the other bytes as they are. -/
def orPixel (raw canon : Nat → Byte) (x y : Nat) : Nat → Byte :=
  Function.update canon (canonOffset x (flipRow y))
    (canon (canonOffset x (flipRow y)) ||| (BitVec.ofBool (rawPixel raw x y)).setWidth 8 <<< canonBit x)

theorem canonPixel_orPixel (raw canon : Nat → Byte) {x y x' y' : Nat} (hx : x < 128) (hy : y < 64) (hx' : x' < 128)
    (hy' : y' < 64) : canonPixel (orPixel raw canon x y) x' (flipRow y') =
      (canonPixel canon x' (flipRow y') || (decide (x' = x ∧ y' = y) && rawPixel raw x y)) := by
  have hsame : canonOffset x' (flipRow y') = canonOffset x (flipRow y) ∧ canonBit x' = canonBit x ↔
      x' = x ∧ y' = y := by
    simp only [canonOffset, canonBit, flipRow, Config.canonStride, Config.frameH]
    omega
  rw [canonPixel, canonPixel, orPixel]
  by_cases hoffset : canonOffset x' (flipRow y') = canonOffset x (flipRow y)
  · have hbit : canonBit x' = canonBit x ↔ x' = x ∧ y' = y := by rw [← hsame, and_iff_right hoffset]
    rw [hoffset, Function.update_self, bitOf_or_single _ _ (canonBit_lt x'), decide_eq_decide.2 hbit]
  · have hne : ¬(x' = x ∧ y' = y) := fun h => hoffset (hsame.2 h).1
    rw [Function.update_of_ne hoffset, decide_eq_false hne, Bool.false_and, Bool.or_false]

theorem PixelsRepacked.orPixel {raw canon : Nat → Byte} {x y : Nat} (h : PixelsRepacked raw (y * 128 + x) canon)
    (hx : x < 128) (hy : y < 64) : PixelsRepacked raw (y * 128 + (x + 1)) (orPixel raw canon x y) := by
  intro x' hx' y' hy'
  rw [canonPixel_orPixel raw canon hx hy hx' hy', h x' hx' y' hy']
  by_cases heq : x' = x ∧ y' = y
  · obtain ⟨rfl, rfl⟩ := heq
    simp
  · have hiff : y' * 128 + x' < y * 128 + (x + 1) ↔ y' * 128 + x' < y * 128 + x := by omega
    simp [heq, hiff]

section
variable {s : State} {canon : Nat → Byte}

/-- REPACK's writes leave its source as it was (R150). -/
theorem rawPixel_memFill_canon {x y : Nat} (hx : x < 128) (hy : y < 64) :
    rawPixel (bufferBytes Config.rawBase (memFill Config.canonBase 1024 canon s)) x y =
      rawPixel (bufferBytes Config.rawBase s) x y := by
  have hoffset := rawOffset_lt hx hy
  rw [rawPixel, bufferBytes_apply, byteAt_memFill_outside (.inl (by simpa using hoffset))]
  rfl

theorem repackPixel_memFill (hm : Memory.wf s.mem) {x y : Nat} (hx : x < 128) (hy : y < 64) :
    repackPixel x y (memFill Config.canonBase 1024 canon s) =
      memFill Config.canonBase 1024 (orPixel (bufferBytes Config.rawBase s) canon x y) s := by
  have hoffset := canonOffset_lt hx (flipRow_lt y)
  have hread := rawPixel_memFill_canon (s := s) (canon := canon) hx hy
  rw [rawPixel, bufferBytes_apply] at hread
  rw [repackPixel, hread, byteAt_memFill_inside hoffset,
    ← memWrite_memFill (g := orPixel (bufferBytes Config.rawBase s) canon x y) (f := canon) hm
      (fun j hj => mapped_canon hj) hoffset le_rfl fun j hj hne => ⟨hj, Function.update_of_ne hne _ _⟩,
    orPixel, Function.update_self]

end

/-- From `s`, R151's loops have come to `t` after zeroing CANON and running `k` rounds. -/
def RepackReached (s : State) (k : Nat) (t : State) : Prop :=
  ∃ canon, PixelsRepacked (bufferBytes Config.rawBase s) k canon ∧ t = memFill Config.canonBase 1024 canon s

section
variable {s t : State}

theorem repackReached_zeroed (hm : Memory.wf s.mem) :
    RepackReached s 0 (forRange Config.frameBytes (fun a => memWrite (Config.canonBase + a) [0]) s) :=
  ⟨fun _ => 0, pixelsRepacked_zero _, forRange_memWrite hm (fun _ hj => mapped_canon hj) fun _ => 0⟩

theorem RepackReached.pixel (hm : Memory.wf s.mem) {x y : Nat} (hx : x < 128) (hy : y < 64)
    (h : RepackReached s (y * 128 + x) t) : RepackReached s (y * 128 + (x + 1)) (repackPixel x y t) := by
  obtain ⟨canon, hcanon, rfl⟩ := h
  exact ⟨_, hcanon.orPixel hx hy, repackPixel_memFill hm hx hy⟩

theorem RepackReached.row (hm : Memory.wf s.mem) {y : Nat} (hy : y < 64) (h : RepackReached s (y * 128) t) :
    RepackReached s ((y + 1) * 128) (forRange Config.frameW (fun x => repackPixel x y) t) := by
  rw [Nat.succ_mul]
  exact forRange_induction (P := fun x => RepackReached s (y * 128 + x)) h fun x hx _ hrow => hrow.pixel hm hx hy

theorem repackReached_repackLoop (hm : Memory.wf s.mem) : RepackReached s 8192 (repackLoop s) := by
  have hzeroed : RepackReached s (0 * 128) _ := repackReached_zeroed hm
  exact forRange_induction (n := 64) (P := fun y => RepackReached s (y * 128)) hzeroed fun y hy _ hrows =>
    hrows.row hm hy

end

/-- Settles O29: the loops end with every pixel of CANON repacked, which leaves the bytes of the closed form. -/
theorem repackLoopAgrees : Obligations.RepackLoopAgrees := by
  refine ⟨rfl, fun s hm => congrArg Host.Outcome.next ?_⟩
  obtain ⟨canon, hcanon, hloop⟩ := repackReached_repackLoop hm
  rw [hloop]
  exact (memFill_congr s (eq_repackByte_of_pixelsRepacked hcanon)).symm

end Sys2Proof.Machine

/-! COLORIZE, UPSCALE and the whole decode (43_raster_scaler.md): the bytes of a raster pixel, what the two operations
leave in THUMB and PREVIEW, each pixel from the RawFrame in both row orders, the loops of R166 and R169 against the
closed forms, and the counts and sums of R175. -/

namespace Sys2Proof.Machine

/-! ### The bytes of a pixel (R57, R58, R59) -/

theorem thumbOffset_add_lt {x y c : Nat} (hx : x < 128) (hy : y < 64) (hc : c < 4) :
    thumbOffset x y + c < 32768 := by
  simp only [thumbOffset, Config.thumbW, Config.pixelBytes]
  omega

theorem previewOffset_add_lt {X Y c : Nat} (hX : X < 512) (hY : Y < 256) (hc : c < 4) :
    previewOffset X Y + c < 524288 := by
  simp only [previewOffset, Config.previewW, Config.pixelBytes]
  omega

/-- The byte of COLORIZE's closed form at channel c of pixel (x, y). -/
theorem colorizeByte_thumbOffset (o : ThumbRowOrder) (canon : Nat → Byte) {x c : Nat} (y : Nat) (hx : x < 128)
    (hc : c < 4) : colorizeByte o canon (thumbOffset x y + c) =
      colourByte (canonPixel canon x (canonRowFor o y)) c := by
  have hpixel : ((y * 128 + x) * 4 + c) / 4 = y * 128 + x := by omega
  have hchannel : ((y * 128 + x) * 4 + c) % 4 = c := by omega
  have hcolumn : (y * 128 + x) % 128 = x := by omega
  have hrow : (y * 128 + x) / 128 = y := by omega
  simp only [colorizeByte, thumbOffset, Config.thumbW, Config.pixelBytes, hpixel, hchannel, hcolumn, hrow]

/-- The byte of UPSCALE's closed form at channel c of pixel (X, Y). -/
theorem upscaleByte_previewOffset (thumb : Nat → Byte) {X c : Nat} (Y : Nat) (hX : X < 512) (hc : c < 4) :
    upscaleByte thumb (previewOffset X Y + c) = thumb (thumbOffset (X / 4) (Y / 4) + c) := by
  have hpixel : ((Y * 512 + X) * 4 + c) / 4 = Y * 512 + X := by omega
  have hchannel : ((Y * 512 + X) * 4 + c) % 4 = c := by omega
  have hcolumn : (Y * 512 + X) % 512 = X := by omega
  have hrow : (Y * 512 + X) / 512 = Y := by omega
  simp only [upscaleByte, previewOffset, Config.previewW, Config.previewScale, Config.pixelBytes, hpixel, hchannel,
    hcolumn, hrow]

/-- A colour is its four channel bytes. -/
theorem map_colourByte (b : Bool) : (List.range 4).map (colourByte b) = colour b := by cases b <;> rfl

theorem colour_getElem? (b : Bool) {c : Nat} (hc : c < 4) : (colour b)[c]? = some (colourByte b c) := by
  rw [← map_colourByte, List.getElem?_map, List.getElem?_range hc, Option.map_some]

theorem decide_colour_eq_dark (b : Bool) : decide (colour b = Config.colorDark) = b := by cases b <;> decide

theorem memRead_congr {s t : State} {a a' n : Nat} (h : ∀ c < n, byteAt s (a + c) = byteAt t (a' + c)) :
    memRead s a n = memRead t a' n :=
  List.map_congr_left fun c hc => h c (List.mem_range.1 hc)

/-- Four bytes that are the channels of a colour read as that colour. -/
theorem memRead_eq_colour {s : State} {a : Nat} {b : Bool} (h : ∀ c < 4, byteAt s (a + c) = colourByte b c) :
    memRead s a 4 = colour b := by
  rw [← map_colourByte]
  exact List.map_congr_left fun c hc => h c (List.mem_range.1 hc)

/-! ### THUMB after COLORIZE (R166, R167, R168) -/

theorem sameOutsideBuffers_colorize (s : State) : SameOutsideBuffers s (colorize s) := by constructor <;> simp

theorem canonRowFor_eq_ite (o : ThumbRowOrder) (y : Nat) :
    canonRowFor o y = if o = .rawOrder then 63 - y else y := by cases o <;> rfl

/-- The four bytes of a thumbnail pixel after COLORIZE are the colour of its CANON bit. -/
theorem lookup_colorize_pixel (s : State) {x y c : Nat} (hx : x < 128) (hy : y < 64) (hc : c < 4) :
    (colorize s).mem.lookup (Config.thumbBase + (thumbOffset x y + c)) =
      (colour (canonPixel (bufferBytes Config.canonBase s) x (canonRowFor s.params.thumbRowOrder y)))[c]? := by
  rw [lookup_colorize_thumb s (thumbOffset_add_lt hx hy hc), colorizeByte_thumbOffset _ _ y hx hc,
    colour_getElem? _ hc]

/-- Settles O30: the two colours are the two values of `colour`, picked by the pixel's CANON bit. -/
theorem colorizeResult : Obligations.ColorizeResult := by
  intro s
  refine ⟨colorize s, rfl, sameOutsideBuffers_colorize s, fun a ha => lookup_colorize_outside s ha,
    fun x hx y hy r hr => ?_⟩
  rw [← canonRowFor_eq_ite] at hr
  subst hr
  have hpixel : ∀ b, canonPixel (bufferBytes Config.canonBase s) x (canonRowFor s.params.thumbRowOrder y) = b →
      ∀ c < 4, (colorize s).mem.lookup (0x08000 + ((y * 128 + x) * 4 + c)) = (colour b)[c]? := by
    rintro b rfl c hc
    exact lookup_colorize_pixel s hx hy hc
  exact ⟨hpixel true, hpixel false⟩

/-! ### PREVIEW after UPSCALE (R169, R171) -/

theorem sameOutsideBuffers_upscale (s : State) : SameOutsideBuffers s (upscale s) := by constructor <;> simp

/-- `previewpix(X, Y) = thumbpix(X div 4, Y div 4)`, byte by byte (R169). -/
theorem lookup_upscale_pixel (s : State) {X Y c : Nat} (hX : X < 512) (hY : Y < 256) (hc : c < 4) :
    (upscale s).mem.lookup (Config.previewBase + (previewOffset X Y + c)) =
      some (byteAt s (Config.thumbBase + (thumbOffset (X / 4) (Y / 4) + c))) := by
  rw [lookup_upscale_preview s (previewOffset_add_lt hX hY hc), upscaleByte_previewOffset _ Y hX hc]
  rfl

/-- Settles O32: the 16 preview pixels of a block have the block's thumbnail pixel as their quotient. -/
theorem upscaleResult : Obligations.UpscaleResult := by
  intro s
  refine ⟨upscale s, rfl, sameOutsideBuffers_upscale s, fun a ha => lookup_upscale_outside s ha,
    fun x hx y hy dx hdx dy hdy c hc => ?_, fun X hX Y hY c hc => ?_⟩
  · have hblock := lookup_upscale_pixel s (X := 4 * x + dx) (Y := 4 * y + dy) (by omega) (by omega) hc
    rw [show (4 * x + dx) / 4 = x by omega, show (4 * y + dy) / 4 = y by omega] at hblock
    rw [Nat.add_assoc ((4 * y + dy) * 512)]
    exact hblock
  · exact byteAt_of_lookup (lookup_upscale_pixel s hX hY hc)

/-! ### From the RawFrame to the rasters (R172, R173, R174) -/

/-- The RawFrame row that feeds thumbnail row y. -/
def rawRowFor (o : ThumbRowOrder) (y : Nat) : Nat := flipRow (canonRowFor o y)

theorem rawRowFor_rawOrder {y : Nat} (hy : y < 64) : rawRowFor .rawOrder y = y :=
  ((flipRow_eq_iff hy (flipRow_lt y)).1 rfl).symm

theorem rawRowFor_canonicalOrder (y : Nat) : rawRowFor .canonicalOrder y = 63 - y := rfl

/-- The RawFrame pixel whose colour the decode gives to thumbnail pixel (x, y). -/
def sourcePixel (s : State) (x y : Nat) : Bool :=
  rawPixel (bufferBytes Config.rawBase s) x (rawRowFor s.params.thumbRowOrder y)

section
variable (s : State)

theorem sourcePixel_rawOrder (ho : s.params.thumbRowOrder = .rawOrder) (x : Nat) {y : Nat} (hy : y < 64) :
    sourcePixel s x y = rawPixel (bufferBytes Config.rawBase s) x y := by
  rw [sourcePixel, ho, rawRowFor_rawOrder hy]

theorem sourcePixel_canonicalOrder (ho : s.params.thumbRowOrder = .canonicalOrder) (x y : Nat) :
    sourcePixel s x y = rawPixel (bufferBytes Config.rawBase s) x (63 - y) := by
  rw [sourcePixel, ho, rawRowFor_canonicalOrder]

/-- A thumbnail pixel after the decode is the colour of its source pixel (R173). -/
theorem memRead_runDecode_thumb {x y : Nat} (hx : x < 128) (hy : y < 64) :
    memRead (runDecode s) (Config.thumbBase + thumbOffset x y) 4 = colour (sourcePixel s x y) := by
  refine memRead_eq_colour fun c hc => ?_
  rw [Nat.add_assoc, byteAt_runDecode_thumb s (thumbOffset_add_lt hx hy hc), colorizeByte_thumbOffset _ _ y hx hc,
    canonPixel_repackByte _ hx]
  rfl

/-- A preview pixel after the decode is the thumbnail pixel of its block (R171). -/
theorem memRead_runDecode_preview {X Y : Nat} (hX : X < 512) (hY : Y < 256) :
    memRead (runDecode s) (Config.previewBase + previewOffset X Y) 4 =
      memRead (runDecode s) (Config.thumbBase + thumbOffset (X / 4) (Y / 4)) 4 := by
  refine memRead_congr fun c hc => ?_
  rw [Nat.add_assoc, Nat.add_assoc, byteAt_runDecode_preview s (previewOffset_add_lt hX hY hc),
    upscaleByte_previewOffset _ Y hX hc,
    byteAt_runDecode_thumb s (thumbOffset_add_lt (by omega) (by omega) hc)]

end

/-- Settles O34: the rows of the RawFrame are those `rawRowFor` gives in each order. -/
theorem decodeFromRawFrame : Obligations.DecodeFromRawFrame := by
  intro s
  have hthumb : ∀ x < 128, ∀ y < 64, memRead (runDecode s) (0x08000 + (y * 128 + x) * 4) 4 =
      colour (sourcePixel s x y) := fun x hx y hy => memRead_runDecode_thumb s hx hy
  have hpreview : ∀ X < 512, ∀ Y < 256, memRead (runDecode s) (0x80000 + (Y * 512 + X) * 4) 4 =
      colour (sourcePixel s (X / 4) (Y / 4)) := fun X hX Y hY =>
    (memRead_runDecode_preview s hX hY).trans (memRead_runDecode_thumb s (by omega) (by omega))
  refine ⟨repack s, colorize (repack s), runDecode s, rfl, rfl, rfl,
    fun ho => ⟨fun x hx y hy => ?_, fun X hX Y hY => ?_⟩, fun ho => ⟨fun x hx y hy => ?_, fun X hX Y hY => ?_⟩⟩
  · rw [hthumb x hx y hy, sourcePixel_rawOrder s ho x hy]
    rfl
  · rw [hpreview X hX Y hY, sourcePixel_rawOrder s ho _ (by omega), show Y / 32 = Y / 4 / 8 by omega]
    rfl
  · rw [hthumb x hx y hy, sourcePixel_canonicalOrder s ho]
    rfl
  · rw [hpreview X hX Y hY, sourcePixel_canonicalOrder s ho]
    rfl

/-- A mapped address is an offset in one of the four buffers (R52). -/
theorem mapped_cases {a : Nat} (ha : mapped a = true) :
    a < 1024 ∨ (∃ i < 1024, a = Config.canonBase + i) ∨ (∃ i < 32768, a = Config.thumbBase + i) ∨
      ∃ i < 524288, a = Config.previewBase + i := by
  simp only [Config.canonBase, Config.thumbBase, Config.previewBase]
  rcases (mapped_iff a).1 ha with h | h | h
  · by_cases hraw : a < 1024
    · exact .inl hraw
    · exact .inr (.inl ⟨a - 1024, by omega, by omega⟩)
  · exact .inr (.inr (.inl ⟨a - 32768, by omega, by omega⟩))
  · exact .inr (.inr (.inr ⟨a - 524288, by omega, by omega⟩))

/-- The decoded bytes are functions of the parameters and the 1024 bytes of RAW (R172). -/
theorem byteAt_runDecode_congr {s s' : State} (hparams : s.params = s'.params)
    (hraw : ∀ i < 1024, byteAt s i = byteAt s' i) {a : Nat} (ha : mapped a = true) :
    byteAt (runDecode s) a = byteAt (runDecode s') a := by
  have hsource : ∀ i < 1024, bufferBytes Config.rawBase s i = bufferBytes Config.rawBase s' i := fun i hi => by
    simpa [bufferBytes_apply] using hraw i hi
  have hcanon : ∀ i < 1024, repackByte (bufferBytes Config.rawBase s) i =
      repackByte (bufferBytes Config.rawBase s') i := fun i hi => repackByte_congr hsource hi
  have hthumb : ∀ i < 32768,
      colorizeByte s.params.thumbRowOrder (repackByte (bufferBytes Config.rawBase s)) i =
        colorizeByte s'.params.thumbRowOrder (repackByte (bufferBytes Config.rawBase s')) i := fun i hi => by
    rw [hparams, colorizeByte_congr hcanon hi]
  obtain hin | ⟨i, hi, rfl⟩ | ⟨i, hi, rfl⟩ | ⟨i, hi, rfl⟩ := mapped_cases ha
  · rw [byteAt_runDecode_raw s hin, byteAt_runDecode_raw s' hin, hraw a hin]
  · rw [byteAt_runDecode_canon s hi, byteAt_runDecode_canon s' hi, hcanon i hi]
  · rw [byteAt_runDecode_thumb s hi, byteAt_runDecode_thumb s' hi, hthumb i hi]
  · rw [byteAt_runDecode_preview s hi, byteAt_runDecode_preview s' hi, upscaleByte_congr hthumb hi]

/-- Settles O35: each of the four buffers after the decode is a function of RAW. -/
theorem decodeDependsOnlyOnRaw : Obligations.DecodeDependsOnlyOnRaw := fun s s' hparams hraw =>
  ⟨repack s, colorize (repack s), runDecode s, repack s', colorize (repack s'), runDecode s',
    rfl, rfl, rfl, rfl, rfl, rfl, fun _ ha => byteAt_runDecode_congr hparams hraw ha⟩

/-! ### Counting pixels and summing bytes (R175) -/

/-- A sum over `h` rows of `w` columns, stored row after row. -/
theorem sum_range_mul (w h : Nat) (f : Nat → Nat) :
    ∑ a ∈ Finset.range (h * w), f a = ∑ y ∈ Finset.range h, ∑ x ∈ Finset.range w, f (y * w + x) := by
  induction h with
  | zero => simp
  | succ h ih => rw [Nat.succ_mul, Finset.sum_range_add, Finset.sum_range_succ, ih]

/-- A sum in which each of `n` terms stands `k` times. -/
theorem sum_range_div (k n : Nat) (f : Nat → Nat) :
    ∑ a ∈ Finset.range (n * k), f (a / k) = k * ∑ x ∈ Finset.range n, f x := by
  rw [sum_range_mul, Finset.mul_sum]
  refine Finset.sum_congr rfl fun x _ => ?_
  have hterm : ∀ i ∈ Finset.range k, f ((x * k + i) / k) = f x := fun i hi => by
    have hi : i < k := Finset.mem_range.1 hi
    rw [Nat.mul_comm, Nat.mul_add_div (by omega), Nat.div_eq_of_lt hi, Nat.add_zero]
  rw [Finset.sum_congr rfl hterm, Finset.sum_const, Finset.card_range, smul_eq_mul]

/-- The number of the thumbnail pixel that preview pixel number p repeats. -/
def blockOf (p : Nat) : Nat := p / 512 / 4 * 128 + p % 512 / 4

/-- Summed over the preview, each thumbnail pixel counts 16 times (R171). -/
theorem sum_preview (f : Nat → Nat) :
    ∑ p ∈ Finset.range 131072, f (blockOf p) = 16 * ∑ q ∈ Finset.range 8192, f q := by
  have hpixel : ∀ Y ∈ Finset.range 256, ∀ X ∈ Finset.range 512,
      f (blockOf (Y * 512 + X)) = f (Y / 4 * 128 + X / 4) := fun Y _ X hX => by
    have hX : X < 512 := Finset.mem_range.1 hX
    rw [blockOf, show (Y * 512 + X) / 512 = Y by omega, show (Y * 512 + X) % 512 = X by omega]
  calc ∑ p ∈ Finset.range (256 * 512), f (blockOf p)
      = ∑ Y ∈ Finset.range 256, ∑ X ∈ Finset.range 512, f (Y / 4 * 128 + X / 4) := by
        rw [sum_range_mul]
        exact Finset.sum_congr rfl fun Y hY => Finset.sum_congr rfl fun X hX => hpixel Y hY X hX
    _ = ∑ Y ∈ Finset.range 256, 4 * ∑ x ∈ Finset.range 128, f (Y / 4 * 128 + x) :=
        Finset.sum_congr rfl fun Y _ => sum_range_div 4 128 fun x => f (Y / 4 * 128 + x)
    _ = 4 * ∑ y ∈ Finset.range 64, 4 * ∑ x ∈ Finset.range 128, f (y * 128 + x) :=
        sum_range_div 4 64 fun y => 4 * ∑ x ∈ Finset.range 128, f (y * 128 + x)
    _ = 16 * ∑ q ∈ Finset.range (64 * 128), f q := by
        rw [sum_range_mul, ← Finset.mul_sum, ← Nat.mul_assoc]

theorem length_filter_range (n : Nat) (p : Nat → Bool) :
    ((List.range n).filter p).length = ∑ i ∈ Finset.range n, (p i).toNat := by
  induction n with
  | zero => rfl
  | succ n ih =>
    rw [List.range_succ, List.filter_append, List.length_append, Finset.sum_range_succ, ih]
    cases h : p n <;> simp [h]

theorem setPixels_eq_sum (w h : Nat) (pixel : Nat → Nat → Bool) :
    setPixels w h pixel = ∑ y ∈ Finset.range h, ∑ x ∈ Finset.range w, (pixel x y).toNat := by
  rw [setPixels, Finset.card_filter, Finset.sum_product_right]
  exact Finset.sum_congr rfl fun y _ => Finset.sum_congr rfl fun x _ => by cases pixel x y <;> rfl

/-- The set bits of a RawFrame are its set pixels (R154). -/
theorem setBits_raw (raw : Nat → Byte) : setBits 1024 raw = setPixels 128 64 (rawPixel raw) := by
  obtain ⟨hmaps, hraw, -⟩ := repackAddressesBijective
  exact setBits_eq_setPixels_of_bijective raw (fun x hx y hy => (hmaps x hx y hy).imp_right And.left) hraw

/-- Both row orders go through the 64 rows once each. -/
theorem sum_rawRowFor (o : ThumbRowOrder) (f : Nat → Nat) :
    ∑ y ∈ Finset.range 64, f (rawRowFor o y) = ∑ y ∈ Finset.range 64, f y := by
  cases o with
  | rawOrder => exact Finset.sum_congr rfl fun y hy => by rw [rawRowFor_rawOrder (Finset.mem_range.1 hy)]
  | canonicalOrder => exact Finset.sum_range_reflect f 64

section
variable (s : State)

/-- Whether thumbnail pixel number q is dark after the decode. -/
def darkAfterDecode (q : Nat) : Bool := sourcePixel s (q % 128) (q / 128)

theorem sum_darkAfterDecode :
    ∑ q ∈ Finset.range 8192, (darkAfterDecode s q).toNat = setBits 1024 (bufferBytes Config.rawBase s) := by
  have hpixel : ∀ y ∈ Finset.range 64, ∀ x ∈ Finset.range 128,
      (darkAfterDecode s (y * 128 + x)).toNat = (sourcePixel s x y).toNat := fun y _ x hx => by
    have hx : x < 128 := Finset.mem_range.1 hx
    rw [darkAfterDecode, show (y * 128 + x) % 128 = x by omega, show (y * 128 + x) / 128 = y by omega]
  rw [setBits_raw, setPixels_eq_sum, ← sum_rawRowFor s.params.thumbRowOrder]
  exact (sum_range_mul 128 64 _).trans
    (Finset.sum_congr rfl fun y hy => Finset.sum_congr rfl fun x hx => hpixel y hy x hx)

/-- The thumbnail by pixel number. -/
theorem thumbPixel_runDecode {q : Nat} (hq : q < 8192) :
    memRead (runDecode s) (Config.thumbBase + q * 4) 4 = colour (darkAfterDecode s q) := by
  have hpixel := memRead_runDecode_thumb s (x := q % 128) (y := q / 128) (by omega) (by omega)
  rwa [thumbOffset, show q / 128 * Config.thumbW + q % 128 = q from Nat.div_add_mod' q 128] at hpixel

/-- The preview by pixel number. -/
theorem previewPixel_runDecode {p : Nat} (hp : p < 131072) :
    memRead (runDecode s) (Config.previewBase + p * 4) 4 = colour (darkAfterDecode s (blockOf p)) := by
  have hpixel := memRead_runDecode_preview s (X := p % 512) (Y := p / 512) (by omega) (by omega)
  rw [previewOffset, show p / 512 * Config.previewW + p % 512 = p from Nat.div_add_mod' p 512] at hpixel
  exact hpixel.trans (thumbPixel_runDecode s (show blockOf p < 8192 by unfold blockOf; omega))

end

/-- The `n` pixels from `b` on have the two colours, dark where `dark` says so (R168). -/
def RasterAt (t : State) (b n : Nat) (dark : Nat → Bool) : Prop := ∀ p < n, memRead t (b + p * 4) 4 = colour (dark p)

section
variable {t : State} {b n : Nat} {dark : Nat → Bool}

theorem RasterAt.darkCount (h : RasterAt t b n dark) :
    ((List.range n).filter fun p => decide (memRead t (b + p * 4) 4 = Config.colorDark)).length =
      ∑ p ∈ Finset.range n, (dark p).toNat := by
  rw [length_filter_range]
  exact Finset.sum_congr rfl fun p hp => by rw [h p (Finset.mem_range.1 hp), decide_colour_eq_dark]

theorem byteSum_eq_sum_pixels (t : State) (b n : Nat) :
    byteSum (n * 4) (bufferBytes b t) =
      ∑ p ∈ Finset.range n, ((memRead t (b + p * 4) 4).map BitVec.toNat).sum := by
  refine (sum_range_mul 4 n _).trans (Finset.sum_congr rfl fun p _ => ?_)
  rw [memRead, List.map_map]
  simp only [bufferBytes_apply, ← Nat.add_assoc]
  rfl

/-- A light pixel's bytes sum to 967, a dark pixel's to 712 less. -/
theorem sum_colour (b : Bool) : ((colour b).map BitVec.toNat).sum + 712 * b.toNat = 967 := by cases b <;> rfl

theorem RasterAt.byteSum (h : RasterAt t b n dark) :
    byteSum (n * 4) (bufferBytes b t) + 712 * ∑ p ∈ Finset.range n, (dark p).toNat = n * 967 := by
  have hpixel : ∀ p ∈ Finset.range n, ((memRead t (b + p * 4) 4).map BitVec.toNat).sum + 712 * (dark p).toNat = 967 :=
    fun p hp => by rw [h p (Finset.mem_range.1 hp), sum_colour]
  rw [byteSum_eq_sum_pixels, Finset.mul_sum, ← Finset.sum_add_distrib, Finset.sum_congr rfl hpixel,
    Finset.sum_const, Finset.card_range, smul_eq_mul]

end

/-- Settles O36: THUMB and PREVIEW are rasters with n and 16 n dark pixels. -/
theorem countingDarkPixels : Obligations.CountingDarkPixels := by
  intro s
  have hthumb : RasterAt (runDecode s) Config.thumbBase 8192 (darkAfterDecode s) := fun _ hq =>
    thumbPixel_runDecode s hq
  have hpreview : RasterAt (runDecode s) Config.previewBase 131072 fun p => darkAfterDecode s (blockOf p) := fun _ hp =>
    previewPixel_runDecode s hp
  have hdark := sum_darkAfterDecode s
  have hdarkPreview := (sum_preview fun q => (darkAfterDecode s q).toNat).trans (congrArg (16 * ·) hdark)
  have hthumbSum : byteSum 32768 (bufferBytes Config.thumbBase (runDecode s)) + 712 * _ = 8192 * 967 :=
    hdark ▸ hthumb.byteSum
  have hpreviewSum : byteSum 524288 (bufferBytes Config.previewBase (runDecode s)) + 712 * _ = 131072 * 967 :=
    hdarkPreview ▸ hpreview.byteSum
  refine ⟨repack s, colorize (repack s), runDecode s, rfl, rfl, rfl,
    hthumb.darkCount.trans hdark, hpreview.darkCount.trans hdarkPreview, hthumbSum, ?_⟩
  omega

/-! ### The loops of COLORIZE and UPSCALE (R166, R169) -/

/-- What is carried through the rounds of two nested loops, counted through, holds after them. -/
theorem forRange_forRange_induction {P : Nat → State → Prop} {n m : Nat} {body : Nat → Nat → State → State} {s : State}
    (h0 : P 0 s) (hstep : ∀ i < n, ∀ j < m, ∀ t, P (i * m + j) t → P (i * m + j + 1) (body i j t)) :
    P (n * m) (forRange n (fun i => forRange m (body i)) s) := by
  refine forRange_induction (P := fun i => P (i * m)) (by rwa [Nat.zero_mul]) fun i hi t ht => ?_
  rw [Nat.succ_mul]
  exact forRange_induction (P := fun j => P (i * m + j)) ht fun j hj => hstep i hi j hj

/-- From `s`, the first `k` pixels, in the order `rank` numbers them, have taken their bytes of `f` in the raster from
`b` on; nothing else has changed. -/
structure Painted (s : State) (b : Nat) (f : Nat → Byte) (rank : Nat → Nat) (k : Nat) (t : State) : Prop where
  frame : t = { s with mem := t.mem }
  form : Memory.wf t.mem
  lookup : ∀ a, t.mem.lookup a = if b ≤ a ∧ rank ((a - b) / 4) < k then some (f (a - b)) else s.mem.lookup a

section
variable {s t : State} {b k : Nat} {f : Nat → Byte} {rank : Nat → Nat}

theorem painted_zero (hm : Memory.wf s.mem) : Painted s b f rank 0 s where
  frame := rfl
  form := hm
  lookup a := by rw [if_neg (by omega)]

theorem Painted.epoch (h : Painted s b f rank k t) : t.epoch = s.epoch := by rw [h.frame]

theorem Painted.params (h : Painted s b f rank k t) : t.params = s.params := by rw [h.frame]

/-- The engines' sources stand below what they write. -/
theorem Painted.byteAt_below (h : Painted s b f rank k t) {a : Nat} (ha : a < b) : byteAt t a = byteAt s a := by
  rw [byteAt, byteAt, h.lookup, if_neg (by omega), h.epoch]

/-- One round: the pixel whose turn it is takes its four bytes. -/
theorem Painted.pixel (h : Painted s b f rank k t) {p : Nat} (hp : ∀ q, rank q = k ↔ q = p)
    (hmapped : ∀ c < 4, mapped (b + (p * 4 + c)) = true) :
    Painted s b f rank (k + 1) (memFill (b + p * 4) 4 (fun c => f (p * 4 + c)) t) where
  frame := congrArg (memFill _ _ _) h.frame
  form := wf_memFill h.form fun c hc => by rw [Nat.add_assoc, hmapped c hc]
  lookup a := by
    rw [lookup_memFill, h.lookup]
    have hturn := hp ((a - b) / 4)
    by_cases hin : b + p * 4 ≤ a ∧ a < b + p * 4 + 4
    · rw [if_pos hin, if_pos (by omega), show p * 4 + (a - (b + p * 4)) = a - b by omega]
    · have hiff : b ≤ a ∧ rank ((a - b) / 4) < k + 1 ↔ b ≤ a ∧ rank ((a - b) / 4) < k := by omega
      rw [if_neg hin, if_congr hiff rfl rfl]

/-- All pixels painted, the raster is filled. -/
theorem Painted.eq_memFill (h : Painted s b f rank k t) {n : Nat} (hm : Memory.wf s.mem)
    (hb : ∀ i < n, mapped (b + i) = true) (hall : ∀ i, rank (i / 4) < k ↔ i < n) : t = memFill b n f s := by
  refine h.frame.trans (withMem_ext (s := s) h.form (wf_memFill hm hb) fun a => ?_)
  have hiff : b ≤ a ∧ rank ((a - b) / 4) < k ↔ b ≤ a ∧ a < b + n := by
    have hoffset := hall (a - b)
    omega
  rw [h.lookup, ← memFill_mem (s := s), lookup_memFill, if_congr hiff rfl rfl]

end

section
variable {s t : State} {k x y : Nat}

/-- A round of COLORIZE's loops writes the bytes of the closed form at its pixel. -/
theorem colorizePixel_of_painted {f : Nat → Byte} {rank : Nat → Nat} (h : Painted s Config.thumbBase f rank k t)
    (hx : x < 128) (hy : y < 64) : colorizePixel x y t =
      memFill (Config.thumbBase + (y * 128 + x) * 4) 4
        (fun c => colorizeByte s.params.thumbRowOrder (bufferBytes Config.canonBase s) ((y * 128 + x) * 4 + c)) t := by
  have hrow : canonRowFor s.params.thumbRowOrder y < 64 := by
    rw [canonRowFor_eq_ite]
    split <;> omega
  have hoffset := canonOffset_lt hx hrow
  have hcolour : ((List.range 4).map fun c =>
      colorizeByte s.params.thumbRowOrder (bufferBytes Config.canonBase s) (thumbOffset x y + c)) =
      colour (canonPixel (bufferBytes Config.canonBase s) x (canonRowFor s.params.thumbRowOrder y)) := by
    rw [← map_colourByte]
    exact List.map_congr_left fun c hc => colorizeByte_thumbOffset _ _ y hx (List.mem_range.1 hc)
  rw [colorizePixel, h.params, h.byteAt_below (by simp; omega)]
  exact congrArg (memWrite _ · t) hcolour.symm

theorem painted_colorizeLoop (hm : Memory.wf s.mem) :
    Painted s Config.thumbBase (colorizeByte s.params.thumbRowOrder (bufferBytes Config.canonBase s)) id 8192
      (colorizeLoop s) := by
  refine forRange_forRange_induction (n := 64) (m := 128) (painted_zero hm) fun y hy x hx t ht => ?_
  rw [colorizePixel_of_painted ht hx hy]
  exact ht.pixel (fun _ => Iff.rfl) fun _ hc => mapped_thumb (thumbOffset_add_lt hx hy hc)

/-- The place of preview pixel number q in the order of UPSCALE's loops: block by block, 16 pixels each. -/
def previewRank (q : Nat) : Nat := blockOf q * 16 + (q / 512 % 4 * 4 + q % 4)

theorem previewRank_pixel (y dy : Nat) {x dx : Nat} (hx : x < 128) (hdx : dx < 4) (hdy : dy < 4) :
    previewRank ((4 * y + dy) * 512 + (4 * x + dx)) = (y * 128 + x) * 16 + (dy * 4 + dx) := by
  have hrow : ((4 * y + dy) * 512 + (4 * x + dx)) / 512 = 4 * y + dy := by omega
  have hcolumn : ((4 * y + dy) * 512 + (4 * x + dx)) % 512 = 4 * x + dx := by omega
  rw [previewRank, blockOf, hrow, hcolumn]
  omega

/-- Every preview pixel stands in a block. -/
theorem exists_block_of_previewPixel (q : Nat) :
    ∃ y, ∃ dy < 4, ∃ x < 128, ∃ dx < 4, q = (4 * y + dy) * 512 + (4 * x + dx) :=
  ⟨q / 512 / 4, q / 512 % 4, by omega, q % 512 / 4, by omega, q % 512 % 4, by omega, by omega⟩

theorem previewRank_eq_iff {dx dy : Nat} (hx : x < 128) (hdx : dx < 4) (hdy : dy < 4) (q : Nat) :
    previewRank q = (y * 128 + x) * 16 + (dy * 4 + dx) ↔ q = (4 * y + dy) * 512 + (4 * x + dx) := by
  obtain ⟨y', dy', hdy', x', hx', dx', hdx', rfl⟩ := exists_block_of_previewPixel q
  rw [previewRank_pixel y' dy' hx' hdx' hdy']
  omega

theorem previewRank_lt_iff (q : Nat) : previewRank q < 131072 ↔ q < 131072 := by
  unfold previewRank blockOf
  omega

/-- The colour a round of UPSCALE's loops reads is that of the closed form at each pixel of its block. -/
theorem memRead_of_painted {f : Nat → Byte} {rank : Nat → Nat} (h : Painted s Config.previewBase f rank k t)
    (hx : x < 128) (hy : y < 64) {dx dy : Nat} (hdx : dx < 4) (hdy : dy < 4) :
    memRead t (Config.thumbBase + thumbOffset x y) 4 =
      (List.range 4).map fun c => upscaleByte (bufferBytes Config.thumbBase s)
        (((4 * y + dy) * 512 + (4 * x + dx)) * 4 + c) := by
  refine List.map_congr_left fun c hc => ?_
  have hc : c < 4 := List.mem_range.1 hc
  have hclosed := upscaleByte_previewOffset (bufferBytes Config.thumbBase s) (4 * y + dy) (X := 4 * x + dx)
    (by omega) hc
  rw [show (4 * x + dx) / 4 = x by omega, show (4 * y + dy) / 4 = y by omega] at hclosed
  have hoffset := thumbOffset_add_lt hx hy hc
  rw [h.byteAt_below (by simp; omega), Nat.add_assoc]
  exact hclosed.symm

/-- From `s`, UPSCALE's loops have painted `k` preview pixels. -/
def PreviewPainted (s : State) (k : Nat) (t : State) : Prop :=
  Painted s Config.previewBase (upscaleByte (bufferBytes Config.thumbBase s)) previewRank k t

/-- A round of UPSCALE's outer loops paints the 16 pixels of a block. -/
theorem PreviewPainted.block (hx : x < 128) (hy : y < 64) (h : PreviewPainted s ((y * 128 + x) * 16) t) :
    PreviewPainted s ((y * 128 + x + 1) * 16) (upscalePixel x y t) := by
  rw [Nat.succ_mul]
  refine forRange_forRange_induction (n := 4) (m := 4) (P := fun j => PreviewPainted s ((y * 128 + x) * 16 + j)) h
    fun dy hdy dx hdx u hu => ?_
  have hround := Painted.pixel hu (previewRank_eq_iff hx hdx hdy) fun _ hc =>
    mapped_preview (previewOffset_add_lt (X := 4 * x + dx) (Y := 4 * y + dy) (by omega) (by omega) hc)
  rwa [memFill, ← memRead_of_painted h hx hy hdx hdy] at hround

theorem previewPainted_upscaleLoop (hm : Memory.wf s.mem) : PreviewPainted s 131072 (upscaleLoop s) :=
  forRange_forRange_induction (n := 64) (m := 128) (P := fun k => PreviewPainted s (k * 16)) (painted_zero hm)
    fun _ hy _ hx _ ht => ht.block hx hy

end

/-- Settles O31: the loops paint the pixels of THUMB in ascending order. -/
theorem colorizeLoopAgrees : Obligations.ColorizeLoopAgrees := by
  refine ⟨rfl, fun s hm => congrArg Host.Outcome.next ?_⟩
  have hall : ∀ i, id (i / 4) < 8192 ↔ i < 32768 := fun i => by rw [id]; omega
  exact ((painted_colorizeLoop hm).eq_memFill hm (fun _ hi => mapped_thumb hi) hall).symm

/-- Settles O33: the loops paint the pixels of PREVIEW block by block. -/
theorem upscaleLoopAgrees : Obligations.UpscaleLoopAgrees := by
  refine ⟨rfl, fun s hm => congrArg Host.Outcome.next ?_⟩
  have hall : ∀ i, previewRank (i / 4) < 131072 ↔ i < 524288 := fun i => by rw [previewRank_lt_iff]; omega
  exact (Painted.eq_memFill (previewPainted_upscaleLoop hm) hm (fun _ hi => mapped_preview hi) hall).symm

end Sys2Proof.Machine

/-! The host software of 44_host_collaborators.md: what it reads out on EV_DONE, one tick of its loop, and the
invariant of the ImageStore through each of its operations. -/

namespace Sys2Proof.Machine

/-! ### The handoff (R192) -/

/-- One image is added, with the next id and these rasters, and selected (R192). -/
theorem exists_appendImage (raw thumbnail preview : List Byte) (store : ImageStore) :
    ∃ image, appendImage raw thumbnail preview store =
        { images := store.images ++ [image], nextId := store.nextId + 1, selected := some store.images.length } ∧
      image.id = store.nextId ∧ image.raw = raw ∧ image.thumbnail = thumbnail ∧ image.preview = preview :=
  ⟨_, rfl, rfl, rfl, rfl, rfl⟩

@[simp] theorem length_images_appendImage (raw thumbnail preview : List Byte) (store : ImageStore) :
    (appendImage raw thumbnail preview store).images.length = store.images.length + 1 := List.length_append

/-- On EV_DONE the host reads all three rasters out of a block in Done and appends them. -/
theorem hostHandoff_of_done {s : State} (hst : s.st = .done) (hd : imageHandoff s = true) (store : ImageStore) :
    hostHandoff s store =
      .ok (appendImage (memRead s Config.rawBase Config.frameBytes) (memRead s Config.thumbBase Config.thumbBytes)
        (memRead s Config.previewBase Config.previewBytes) store) := by
  have hv : outputValid s = true := decide_eq_true hst
  have hraw := readBufferRun_of_readable (n := Config.frameBytes) hv (by decide) fun _ hi => mapped_raw hi
  have hthumb := readBufferRun_of_readable (n := Config.thumbBytes) hv (by decide) fun _ hi => mapped_thumb hi
  have hpreview := readBufferRun_of_readable (n := Config.previewBytes) hv (by decide) fun _ hi => mapped_preview hi
  rw [hostHandoff, if_pos hd, hraw, hthumb, hpreview]
  rfl

/-! ### A tick of the host's loop (R185) -/

/-- Where the block steps and the duty on its answer is done, the loop goes on with both results. -/
theorem hostIssue_of_step {w : Word} {h : HostLoop} {t : State} {store : ImageStore}
    (hstep : step (presentHostWord w h.block) = .next t) (hs : hostHandoff t h.store = .ok store) :
    hostIssue w h = .next { block := t, store := store } := by
  simp [hostIssue, hstep, hs]

/-- The block's part of a tick is one POLL on the host port. -/
theorem step_present_pseudoTick (s : State) :
    step (presentHostWord (encode pseudoTick) s) = exec .poll { s with engine := none } :=
  step_presentHostWord (decode_encode (i := .poll) rfl) s

/-- A tick is one POLL, and the host's duty on the answer. -/
theorem hostTick_of_poll {h : HostLoop} {t : State} {store : ImageStore}
    (hpoll : exec .poll { h.block with engine := none } = .next t) (hs : hostHandoff t h.store = .ok store) :
    hostTick h = .next { block := t, store := store } :=
  hostIssue_of_step ((step_present_pseudoTick h.block).trans hpoll) hs

/-- Settles O58: EV_DONE comes only from a POLL that ends in Done, where every byte the host reads is readable. -/
theorem handoffAppendsImage : Obligations.HandoffAppendsImage := by
  refine ⟨fun s store hst hd => ?_, fun s store hd => hostHandoff_of_not_handoff hd, fun h => ?_⟩
  · obtain ⟨image, himage, hfields⟩ := exists_appendImage (memRead s Config.rawBase Config.frameBytes)
      (memRead s Config.thumbBase Config.thumbBytes) (memRead s Config.previewBase Config.previewBytes) store
    exact ⟨image, (hostHandoff_of_done hst hd store).trans (congrArg Except.ok himage), hfields⟩
  have hpoll : exec .poll { h.block with engine := none } = .next (pollOnce { h.block with engine := none }) := rfl
  refine ⟨_, hpoll, fun hd => ?_, fun hd => hostTick_of_poll hpoll (hostHandoff_of_not_handoff hd)⟩
  obtain ⟨-, hst, -, ht⟩ := exec_handoff rfl hpoll hd
  have hdone : (pollOnce { h.block with engine := none }).st = .done := by rw [ht, complete_st]
  have hs := hostHandoff_of_done hdone hd h.store
  exact ⟨hst, hdone, _, hs, length_images_appendImage .., hostTick_of_poll hpoll hs⟩

/-! ### The ImageStore (R190 to R196) -/

theorem storeInv_emptyStore : StoreInv emptyStore where
  rising := .nil
  positive _ h := by cases h
  fresh _ h := by cases h
  nextId := Nat.le_refl 1
  selection _ h := by cases h

/-- A store that keeps some of the ids, in their order, and gives out no id anew needs only its selection in range. -/
theorem StoreInv.of_sublist {store store' : ImageStore} (h : StoreInv store)
    (hids : (store'.images.map (·.id)).Sublist (store.images.map (·.id))) (hnext : store'.nextId = store.nextId)
    (hsel : ∀ i, store'.selected = some i → i < store'.images.length) : StoreInv store' := by
  have hmem : ∀ image ∈ store'.images, ∃ old ∈ store.images, old.id = image.id := fun image hi =>
    List.mem_map.1 (hids.subset (List.mem_map_of_mem hi))
  refine ⟨List.pairwise_map.1 ((List.pairwise_map.2 h.rising).sublist hids), fun image hi => ?_, fun image hi => ?_,
    hnext ▸ h.nextId, hsel⟩
  · obtain ⟨old, ho, hid⟩ := hmem image hi
    exact hid ▸ h.positive old ho
  · obtain ⟨old, ho, hid⟩ := hmem image hi
    exact hid ▸ hnext ▸ h.fresh old ho

/-- The one operation that gives out an id takes `next_id`, which is above all others (R192). -/
theorem StoreInv.append {store : ImageStore} (h : StoreInv store) (raw thumbnail preview : List Byte) :
    StoreInv (appendImage raw thumbnail preview store) where
  rising := List.pairwise_append.2 ⟨h.rising, List.pairwise_singleton .., fun a ha b hb => by
    obtain rfl := List.mem_singleton.1 hb
    exact h.fresh a ha⟩
  positive image hi := by
    obtain hi | hi := List.mem_append.1 hi
    · exact h.positive image hi
    · obtain rfl := List.mem_singleton.1 hi
      exact h.nextId
  fresh image hi := by
    obtain hi | hi := List.mem_append.1 hi
    · exact Nat.lt_succ_of_lt (h.fresh image hi)
    · obtain rfl := List.mem_singleton.1 hi
      exact Nat.lt_succ_self _
  nextId := Nat.le_succ_of_le h.nextId
  selection i hi := by
    cases hi
    rw [length_images_appendImage]
    exact Nat.lt_succ_self _

/-- What a rename leaves as it was (R193). -/
theorem renameImage_keeps {index : Nat} {text : String} {store store' : ImageStore}
    (h : renameImage index text store = .ok store') :
    store'.images.map (·.id) = store.images.map (·.id) ∧ store'.nextId = store.nextId ∧
      store'.selected = store.selected := by
  unfold renameImage at h
  split at h
  case h_1 => cases h
  case h_2 image himage =>
    split_ifs at h <;> cases h
    · exact ⟨rfl, rfl, rfl⟩
    · obtain ⟨hlt, rfl⟩ := List.getElem?_eq_some_iff.1 himage
      refine ⟨?_, rfl, rfl⟩
      rw [List.map_set, ← List.map_set (f := (·.id)) (a := store.images[index]), List.set_getElem_self]

theorem removeImage_ok {index : Nat} {store store' : ImageStore} (h : removeImage index store = .ok store') :
    index < store.images.length ∧
      store' = { store with
        images := store.images.eraseIdx index
        selected := clampSelection (store.images.length - 1) store.selected } := by
  unfold removeImage at h
  split_ifs at h with hlt
  cases h
  exact ⟨hlt, rfl⟩

theorem selectImage_ok {index : Nat} {store store' : ImageStore} (h : selectImage index store = .ok store') :
    index < store.images.length ∧ store' = { store with selected := some index } := by
  unfold selectImage at h
  split_ifs at h with hlt
  cases h
  exact ⟨hlt, rfl⟩

/-- A clamped selection is in range (R194). -/
theorem lt_of_clampSelection {count i : Nat} {selected : Option Nat} (h : clampSelection count selected = some i) :
    i < count := by
  cases selected with
  | none => cases h
  | some j =>
    rw [clampSelection] at h
    split_ifs at h
    cases h
    omega

theorem StoreInv.rename {index : Nat} {text : String} {store store' : ImageStore} (h : StoreInv store)
    (hr : renameImage index text store = .ok store') : StoreInv store' := by
  obtain ⟨hids, hnext, hsel⟩ := renameImage_keeps hr
  have hlength : store'.images.length = store.images.length := by simpa using congrArg List.length hids
  exact h.of_sublist (by rw [hids]) hnext fun i hi => hlength ▸ h.selection i (hsel ▸ hi)

theorem StoreInv.remove {index : Nat} {store store' : ImageStore} (h : StoreInv store)
    (hr : removeImage index store = .ok store') : StoreInv store' := by
  obtain ⟨hlt, rfl⟩ := removeImage_ok hr
  refine h.of_sublist ((List.eraseIdx_sublist ..).map _) rfl fun i hi => ?_
  rw [List.length_eraseIdx_of_lt hlt]
  exact lt_of_clampSelection hi

theorem StoreInv.select {index : Nat} {store store' : ImageStore} (h : StoreInv store)
    (hs : selectImage index store = .ok store') : StoreInv store' := by
  obtain ⟨hlt, rfl⟩ := selectImage_ok hs
  refine h.of_sublist (.refl _) rfl fun i hi => ?_
  cases hi
  exact hlt

theorem StoreInv.clear {store : ImageStore} (h : StoreInv store) : StoreInv (clearImages store) :=
  h.of_sublist (List.nil_sublist _) rfl fun _ hi => by cases hi

/-- Settles O59: only append gives out an id, and every other operation keeps some of the ids in their order. -/
theorem imageStoreKeepsIds : Obligations.ImageStoreKeepsIds := by
  refine ⟨storeInv_emptyStore, fun store h => ⟨h.append, fun _ _ _ hr => h.rename hr,
    fun _ _ hr => ⟨h.remove hr, ?_⟩, fun _ _ hs => h.select hs, h.clear, rfl⟩⟩
  obtain ⟨-, rfl⟩ := removeImage_ok hr
  rfl

end Sys2Proof.Machine

/-! The exceptions of 60_exceptions.md: what the block does without a command. -/

namespace Sys2Proof.Machine

/-! ### Waiting (R218, R232) -/

/-- Settles O7: no word on the engine port and no event of the host leave `step` only its waiting case. -/
theorem stepWaitsWithoutCommand : Obligations.StepWaitsWithoutCommand := by
  intro s hengine hhost
  simp only [step, hengine, hhost]

end Sys2Proof.Machine

/-! The reset of 70_reset_and_hazards.md, and the command that reaches its register state. -/

namespace Sys2Proof.Machine

/-! ### DISCONNECT in place of a reset (R231) -/

theorem CounterInv.registers_of_not_connected {s : State} (h : CounterInv s) (hc : s.conn = false) :
    s.st = .idle ∧ s.br = 0 ∧ s.rc = 0 :=
  have hidle := h.disconnected_idle hc
  ⟨hidle, h.idle_zero hidle⟩

theorem LinkInv.handle_of_not_connected {s : State} (h : LinkInv s) (hc : s.conn = false) :
    s.link.handle = none :=
  Option.not_isSome_iff_eq_none.1 (by simp [h.handle_iff, hc])

/-- Settles O13: DISCONNECT leaves CONN = 0 and keeps both invariants, and these fix the other registers and the
handle of a block that is not connected. -/
theorem disconnectReachesResetRegisters : Obligations.DisconnectReachesResetRegisters := by
  intro s hcounters hlink
  have hconn := disconnectPort_conn s
  obtain ⟨hst, hbr, hrc⟩ := hcounters.disconnectPort.registers_of_not_connected hconn
  exact ⟨disconnectPort s, rfl, hst, hconn, hbr, hrc, hlink.disconnectPort.handle_of_not_connected hconn⟩

/-! ### Reset (R230) -/

theorem step_of_reset {s : State} {rest : List HostEvent} (hengine : s.engine = none)
    (hhost : s.host = .reset :: rest) : step s = .next (resetBlock (takeHostEvent rest s)) := by
  simp only [step, hengine, hhost]

theorem imageHandoff_resetBlock (s : State) : imageHandoff (resetBlock s) = false := by
  simp [imageHandoff, responseCode]

/-- A block that was just reset lets no buffer byte be read (R54). -/
theorem readBuffer_resetBlock (s : State) (a : BitVec 20) :
    readBuffer a (resetBlock s) = .error .bufferNotReadable :=
  readBuffer_of_not_done (by simp) a

/-- Settles O38: the step is `resetBlock`, whose fields stand as R230 lists them; the queues are what the environment
answers. -/
theorem resetEvent : Obligations.ResetEvent := by
  intro s rest hengine hhost
  exact ⟨resetBlock (takeHostEvent rest s), [], s.epoch + 1, (closeAnswer s.env).rx, (closeAnswer s.env).tx, rfl,
    step_of_reset hengine hhost, imageHandoff_resetBlock _, readBuffer_resetBlock _⟩

end Sys2Proof.Machine
